-- ==== Sys2Proof/Word.lean ====
section
/-! DEFINITION. The word types of the DXL framer (spec/00_scope.md R9, spec/20_memory.md R59). -/

namespace Sys2Proof

/-- One byte: every register, buffer cell and packet element (R7, R59). -/
abbrev Byte := BitVec 8

/-- A 16-bit host register: `REG_LIMIT`, `TX_LEN`, `RX_RAWLEN` (R29, R36). -/
abbrev Half := BitVec 16

/-- A host-port address, 0x000-0x7FF (R59). -/
abbrev Addr := BitVec 11

end Sys2Proof
end

