-- ==== Sys2Proof/Syntax.lean ====
section
/-! DEFINITION. The commands of the block: one constructor per row of spec/opcode_table.json (30_encoding.md R95). -/

namespace Sys2Proof

/-- A command as `CMD` selects it. Every constructor carries the `SLOT` field, bits 7:4 of `CMD`; the rows whose table
entry says "ignored" carry it too, because it is part of the word that reads back (R26, R95), and their meanings do
not look at it. -/
inductive Instr where
  | nop (slot : Nat)
  | ping (slot : Nat)
  | readBytes (slot : Nat)
  | readWords (slot : Nat)
  | writeBytes (slot : Nat)
  | writeWords (slot : Nat)
  | action (slot : Nat)
  | syncWrite (slot : Nat)
  | encode (slot : Nat)
  | sendRaw (slot : Nat)
  | decode (slot : Nat)
  | reservedB (slot : Nat)
  | reservedC (slot : Nat)
  | reservedD (slot : Nat)
  | reservedE (slot : Nat)
  | reservedF (slot : Nat)
deriving DecidableEq, Repr

end Sys2Proof
end

