-- ==== Sys2Proof/WellFormed.lean ====
section
/-! DEFINITION. Which commands have an encoding: the `SLOT` field has four bits (10_state.md R26). -/

namespace Sys2Proof

/-- The `SLOT` field of a command. -/
def Instr.slot : Instr → Nat
  | .nop k | .ping k | .readBytes k | .readWords k | .writeBytes k | .writeWords k
  | .action k | .syncWrite k | .encode k | .sendRaw k | .decode k
  | .reservedB k | .reservedC k | .reservedD k | .reservedE k | .reservedF k => k

/-- `SLOT` fits its four bits (R26). Whether the slot exists is a question for CHECK, not for the encoding (R145). -/
def Instr.wf (i : Instr) : Bool := decide (i.slot < 16)

end Sys2Proof
end

