-- ==== Sys2Proof/Decode.lean ====
section
/-! DEFINITION. Decoding and encoding of the command byte `CMD` (10_state.md R26, 30_encoding.md R95, R97). -/

namespace Sys2Proof

/-- Why a byte list holds no command. -/
inductive DecodeError where
  /-- There is no byte to read `CMD` from. -/
  | noCommandByte
deriving DecidableEq, Repr

/-- The command with opcode `op` (bits 3:0) and slot field `slot` (bits 7:4): the opcode map of R95. -/
def commandOf (op slot : Nat) : Instr :=
  match op with
  | 0x0 => .nop slot
  | 0x1 => .ping slot
  | 0x2 => .readBytes slot
  | 0x3 => .readWords slot
  | 0x4 => .writeBytes slot
  | 0x5 => .writeWords slot
  | 0x6 => .action slot
  | 0x7 => .syncWrite slot
  | 0x8 => .encode slot
  | 0x9 => .sendRaw slot
  | 0xA => .decode slot
  | 0xB => .reservedB slot
  | 0xC => .reservedC slot
  | 0xD => .reservedD slot
  | 0xE => .reservedE slot
  | _ => .reservedF slot

/-- The command a `CMD` byte selects. Every one of the 256 values is decoded (R95). -/
def decodeCmd (b : Byte) : Instr := commandOf (b.toNat % 16) (b.toNat / 16)

/-- Decode the first byte of a byte list; the rest is handed back. -/
def decode : List Byte → Except DecodeError (Instr × List Byte)
  | [] => .error .noCommandByte
  | b :: rest => .ok (decodeCmd b, rest)

/-- The `OP` value of a command (R95). -/
def opcode : Instr → Nat
  | .nop _ => 0x0
  | .ping _ => 0x1
  | .readBytes _ => 0x2
  | .readWords _ => 0x3
  | .writeBytes _ => 0x4
  | .writeWords _ => 0x5
  | .action _ => 0x6
  | .syncWrite _ => 0x7
  | .encode _ => 0x8
  | .sendRaw _ => 0x9
  | .decode _ => 0xA
  | .reservedB _ => 0xB
  | .reservedC _ => 0xC
  | .reservedD _ => 0xD
  | .reservedE _ => 0xE
  | .reservedF _ => 0xF

/-- The `CMD` byte of a command: `SLOT` in bits 7:4, `OP` in bits 3:0 (R95). -/
def encode (i : Instr) : Byte := BitVec.ofNat 8 (i.slot * 16 + opcode i)

/-- The bytes of an instruction whose bits are `w`, least significant byte first: `n` of them. -/
def wordBytes : Nat → Nat → List Byte
  | 0, _ => []
  | n + 1, w => BitVec.ofNat 8 w :: wordBytes n (w / 256)

/-- The command this decoder reads from a row of spec/opcode_table.json whose bits are `w`. -/
def decodeTableWord (nbits w : Nat) : Option Instr :=
  match decode (wordBytes (nbits / 8) w) with
  | .ok (i, _) => some i
  | .error _ => none

end Sys2Proof
end

