-- ==== Sys2Proof/Config.lean ====
section
/-! DEFINITION. What the spec leaves to the instance: the default `NSESS`, and the free values (R7, 93 U1-U3). -/

namespace Sys2Proof.Config

/-- The default of the parameter `NSESS` (00_scope.md R7, D5). Only `State.reset` reads it: every other definition
takes `NSESS` to be the number of slots in the state (log 6). -/
def nsessDefault : Nat := 4

/-- `RAM_INIT`: the byte at host address `a` of a buffer after reset number `epoch`, until something writes it
(R46, U1). Free: it has no body (log 7). -/
opaque ramInit (epoch a : Nat) : Byte

/-- The count the Transport's `n`-th free draw accepts, before the bound of R78 is applied (U2). Free (log 4). -/
opaque txDraw (n : Nat) : Nat

/-- The bytes the Transport's `n`-th free draw returns, before the bound of R78 is applied (U3). Free (log 4). -/
opaque rxDraw (n : Nat) : List Byte

end Sys2Proof.Config
end

