-- ==== Sys2Proof/Machine/State.lean ====
section
/-! DEFINITION. The architectural state of the block (10_state.md R20-R46), the inputs of the model, and the state
after reset (R46). -/

namespace Sys2Proof.Machine

/-- The sequencer phase, the block's only control state (R23, R24). `unused` is encoding 7. -/
inductive Phase where
  | idle | check | build | tx | rx | decode | commit | unused
deriving DecidableEq, Repr

/-- The outcome codes (60_exceptions.md R142). -/
inductive OutCode where
  | ok | noReply | malformed | checksumMismatch | deviceFault | usageError | txIncomplete | illegalCmd
deriving DecidableEq, Repr

/-- The detail codes (60_exceptions.md R143); `zero` is 0x00, the detail of every other outcome. -/
inductive Detail where
  | zero | badId | badSlot | countRange | regOverflow | syncEmpty | syncMismatch | batchOverrun
  | short | header | length | payloadLen
deriving DecidableEq, Repr

/-- What `decode` returns for a received frame (41_codec.md R117). -/
inductive FrameResult where
  | malformed (d : Detail)
  | checksumMismatch
  | valid (src err : Byte) (params : List Byte)
deriving DecidableEq, Repr

/-- The registers a command takes its inputs from: `CMD`, the operands, `REG_LIMIT` and the instruction codes
(R22, R26, R33, R36). -/
structure Inputs where
  cmd : Byte
  cmdId : Byte
  cmdAddr : Byte
  cmdCount : Byte
  cmdFlags : Byte
  cmdInstr : Byte
  regLimit : Half
  instrPing : Byte
  instrRead : Byte
  instrWrite : Byte
  instrRegWrite : Byte
  instrAction : Byte
  instrSyncWrite : Byte
deriving DecidableEq, Repr

/-- The hidden snapshot `lat` taken when a command starts: the input registers, and the selected slot's `ID` and
`SRL` (R42). -/
structure Latch where
  inp : Inputs
  slotId : Byte
  slotSrl : Byte
deriving DecidableEq, Repr

/-- One slot of the session table (R30). -/
structure Slot where
  id : Byte
  srl : Byte
  rdelay : Byte
  lastError : Byte
deriving DecidableEq, Repr

/-- One turn of the schedule: which agent moves, and for the host what it does (R19, R44, R59; log 2, log 14). -/
inductive Turn where
  /-- The block takes its next step, if it has one. -/
  | block
  /-- `HostRead(a)`. -/
  | read (a : Addr)
  /-- `HostWrite(a, d)`. -/
  | write (a : Addr) (d : Byte)
  /-- The reset input takes a level. -/
  | rst (level : Bool)
deriving DecidableEq, Repr

/-- A Transport call that returned, with its answer (R13, R78). -/
inductive BusCall where
  | txWrite (frame : List Byte) (accepted : Nat)
  | rxRead (max : Nat) (bytes : List Byte)
deriving DecidableEq, Repr

/-- The whole state: the architectural state of R21, the input `rst`, and the model's own fields (INVENTORY.md). -/
structure State where
  /-- The sequencer phase (R24); `BUSY` is `phase ≠ idle` (R23). -/
  phase : Phase
  /-- `CMD`, operands, `REG_LIMIT`, `INSTR_*`. -/
  inp : Inputs
  done : Bool
  overrun : Bool
  busSuspect : Bool
  rsvdErr : Bool
  outcome : Byte
  detail : Byte
  ctrl : Byte
  rxSrcId : Byte
  rxError : Byte
  rxPlen : Byte
  txLen : Half
  rxRawLen : Half
  /-- The session table; its length is `NSESS` (R30, log 6). -/
  slots : List Slot
  /-- Bytes of the five buffers written since reset, keyed by host address (R41, log 7). -/
  ram : List Host.Cell
  /-- Hidden latches (R42), meaningful only while a command runs. -/
  lat : Latch
  /-- The frame BUILD made. -/
  frame : Option (List Byte)
  /-- The count `TxWrite` returned. -/
  acc : Option Nat
  /-- The bytes `RxRead` returned. -/
  rx : Option (List Byte)
  /-- The result of `decode`. -/
  dec : Option FrameResult
  /-- The pending `(OUTCOME, DETAIL)` pair. -/
  pend : Option (OutCode × Detail)
  /-- The reset input (R44, R159). -/
  rst : Bool
  /-- Model's own: the turns still to come (log 2). -/
  schedule : List Turn
  /-- Model's own: what the host port returned, oldest first (log 16). -/
  reads : List Byte
  /-- Model's own: the Transport calls that returned, oldest first (log 16). -/
  busLog : List BusCall
  /-- Model's own: the Transport's next answers to `TxWrite`; `none` never returns (log 4, log 5). -/
  txAnswers : List (Option Nat)
  /-- Model's own: the Transport's next answers to `RxRead`; `none` never returns (log 4, log 5). -/
  rxAnswers : List (Option (List Byte))
  /-- Model's own: how many free Transport draws were made (log 4). -/
  draws : Nat
  /-- Model's own: how many resets there were (log 7). -/
  epoch : Nat
deriving DecidableEq, Repr

/-- Why the machine stops. -/
inductive Fault where
  /-- The block is to take a step in phase encoding 7, which R24 says is never reached ("A model may treat reaching it
  as a fault of the model"). Raised by every command's meaning in that phase. Safe: no state a run reaches has it. -/
  | unusedPhase
deriving DecidableEq, Repr

/-- Why an instruction has no meaning. -/
inductive Refusal where
  /-- The instruction is not modelled. Raised by no arm of this model: every row has its meaning. Safe. -/
  | notModelled (mnemonic : String)
deriving DecidableEq, Repr

/-- `NSESS`, the number of session slots (R7, R30). -/
def State.nsess (s : State) : Nat := s.slots.length

/-- `STATUS.BUSY = (phase != IDLE)` (R23). -/
def State.busy (s : State) : Bool := s.phase != .idle

/-- The input registers after reset (R46). -/
def Inputs.reset : Inputs where
  cmd := 0x00
  cmdId := 0x00
  cmdAddr := 0x00
  cmdCount := 0x00
  cmdFlags := 0x00
  cmdInstr := 0x00
  regLimit := 0x0100
  instrPing := 0x01
  instrRead := 0x02
  instrWrite := 0x03
  instrRegWrite := 0x04
  instrAction := 0x05
  instrSyncWrite := 0x83

/-- A session slot after reset (R30, R46). -/
def Slot.reset : Slot where
  id := 1
  srl := 2
  rdelay := 250
  lastError := 0

/-- The hidden snapshot after reset: unspecified and unused (R46). DESIGN CHOICE: all zero (log 8). -/
def Latch.reset : Latch where
  inp :=
    { cmd := 0, cmdId := 0, cmdAddr := 0, cmdCount := 0, cmdFlags := 0, cmdInstr := 0, regLimit := 0,
      instrPing := 0, instrRead := 0, instrWrite := 0, instrRegWrite := 0, instrAction := 0, instrSyncWrite := 0 }
  slotId := 0
  slotSrl := 0

/-- The machine right after reset, for an instance with `n` session slots (R46). Fields the spec does not name have
the values of log 2, 4, 7, 8 and 16. -/
def State.resetOf (n : Nat) : State where
  phase := .idle
  inp := Inputs.reset
  done := false
  overrun := false
  busSuspect := false
  rsvdErr := false
  outcome := 0x00
  detail := 0x00
  ctrl := 0x00
  rxSrcId := 0x00
  rxError := 0x00
  rxPlen := 0x00
  txLen := 0x0000
  rxRawLen := 0x0000
  slots := List.replicate n Slot.reset
  ram := []
  lat := Latch.reset
  frame := none
  acc := none
  rx := none
  dec := none
  pend := none
  rst := false
  schedule := []
  reads := []
  busLog := []
  txAnswers := []
  rxAnswers := []
  draws := 0
  epoch := 0

/-- The machine right after reset, with the default `NSESS` (R46, R7). -/
def State.reset : State := State.resetOf Config.nsessDefault

end Sys2Proof.Machine
end

