-- ==== Sys2Proof/Machine/Codec.lean ====
section
/-! DEFINITION. The packet codec as pure functions: checksum, encoder, decoder (41_codec.md R113-R119). -/

namespace Sys2Proof.Machine

/-- `sum(xs)`, over the integers (R10). -/
def byteSum : List Byte → Nat
  | [] => 0
  | x :: xs => x.toNat + byteSum xs

/-- `checksum(xs) = 255 - (sum(xs) mod 256)` (R113). -/
def checksum (xs : List Byte) : Byte := BitVec.ofNat 8 (255 - byteSum xs % 256)

/-- The summed part of a packet: id, length, code and parameters (R115). -/
def frameBody (id code : Byte) (params : List Byte) : List Byte :=
  id :: BitVec.ofNat 8 (params.length + 2) :: code :: params

/-- `encode(id, code, params)` (R115). The length byte is `n + 2`, which fits for the `n <= 253` that CHECK lets through
(R106). -/
def encodeFrame (id code : Byte) (params : List Byte) : List Byte :=
  0xFF :: 0xFF :: (frameBody id code params ++ [checksum (frameBody id code params)])

/-- `buf[i]`; past the end of the list 0, which no rule reads (log 11). -/
def byteOf (buf : List Byte) (i : Nat) : Byte := buf.getD i 0

/-- The slice `buf[i..j)` of a byte list (R10). -/
def sliceOf (buf : List Byte) (i j : Nat) : List Byte := (buf.take j).drop i

/-- `decode(buf, r)`: the checks in the order SHORT, HEADER, LENGTH, checksum (R117, R118). -/
def decodeFrame (buf : List Byte) (r : Nat) : FrameResult :=
  if r < 6 then .malformed .short
  else if byteOf buf 0 ≠ 0xFF ∨ byteOf buf 1 ≠ 0xFF then .malformed .header
  else if (byteOf buf 3).toNat + 4 ≠ r then .malformed .length
  else if byteOf buf (r - 1) ≠ checksum (sliceOf buf 2 (r - 1)) then .checksumMismatch
  else .valid (byteOf buf 2) (byteOf buf 4) (sliceOf buf 5 (r - 1))

end Sys2Proof.Machine
end

