-- ==== Sys2Proof/Machine/Flags.lean ====
section
/-! DEFINITION. Codes, flags and ports: outcome and detail codes (R142, R143), phase codes (R24), the error-byte decoder
(R120-R122), `STATUS` (R27) and the output ports (R43). -/

namespace Sys2Proof.Machine

/-- The 3-bit encoding of a phase (R24). -/
def phaseCode : Phase → BitVec 3
  | .idle => 0
  | .check => 1
  | .build => 2
  | .tx => 3
  | .rx => 4
  | .decode => 5
  | .commit => 6
  | .unused => 7

/-- The value of an outcome in `OUTCOME` (R142). -/
def outCodeByte : OutCode → Byte
  | .ok => 0x00
  | .noReply => 0x01
  | .malformed => 0x02
  | .checksumMismatch => 0x03
  | .deviceFault => 0x04
  | .usageError => 0x05
  | .txIncomplete => 0x06
  | .illegalCmd => 0x07

/-- The value of a detail in `DETAIL` (R143). -/
def detailByte : Detail → Byte
  | .zero => 0x00
  | .badId => 0x01
  | .badSlot => 0x02
  | .countRange => 0x03
  | .regOverflow => 0x04
  | .syncEmpty => 0x05
  | .syncMismatch => 0x06
  | .batchOverrun => 0x07
  | .short => 0x11
  | .header => 0x12
  | .length => 0x13
  | .payloadLen => 0x14

/-- The seven device faults, in bit order (R88). -/
inductive FaultKind where
  | inputVoltage | angleLimit | overheating | range | checksum | overload | instruction
deriving DecidableEq, Repr

/-- The bit of the error byte that reports a fault (R88). -/
def faultBit : FaultKind → Nat
  | .inputVoltage => 0
  | .angleLimit => 1
  | .overheating => 2
  | .range => 3
  | .checksum => 4
  | .overload => 5
  | .instruction => 6

/-- All seven kinds, in bit order: `kind(0..6)` of R120. -/
def faultKinds : List FaultKind :=
  [.inputVoltage, .angleLimit, .overheating, .range, .checksum, .overload, .instruction]

/-- `faults(e)` as the vector `e[6:0]` (R120). -/
def faultVector (e : Byte) : Byte := e &&& 0x7F

/-- `faults(e)` as the set of kinds whose bit is set, in bit order (R120). -/
def faultSet (e : Byte) : List FaultKind := faultKinds.filter fun k => e.getLsbD (faultBit k)

/-- Whether `err[6:0] != 0`: the condition of DEVICE_FAULT and of `FAULT_ANY` (R27, R109). -/
def anyFault (e : Byte) : Bool := faultVector e != 0

/-- `first_fault(e)`: the lowest set bit of `e[6:0]`, or 7 (R121). -/
def firstFault (e : Byte) : Nat := ((List.range 7).find? fun i => e.getLsbD i).getD 7

/-- Error-byte bit 7, reserved: not a fault (R122). -/
def reservedError (e : Byte) : Bool := e.getLsbD 7

/-- A flag as bit `k` of a byte. -/
def bitByte (b : Bool) (k : Nat) : Byte := if b then BitVec.ofNat 8 (2 ^ k) else 0

/-- `STATUS.FAULT_ANY`, combinational (R27). -/
def State.faultAny (s : State) : Bool := anyFault s.rxError

/-- The value `STATUS` reads as; bits 7:6 are reserved and read 0 (R27). -/
def statusByte (s : State) : Byte :=
  bitByte s.busy 0 ||| bitByte s.done 1 ||| bitByte s.overrun 2 ||| bitByte s.busSuspect 3
    ||| bitByte s.rsvdErr 4 ||| bitByte s.faultAny 5

/-- `CTRL.IRQ_EN` (R34). -/
def irqEnable (s : State) : Bool := s.ctrl.getLsbD 0

/-- The output `irq = STATUS.DONE & CTRL.IRQ_EN` (R43, R150). -/
def irq (s : State) : Bool := s.done && irqEnable s

/-- The output `busy` (R43). -/
def busyLine (s : State) : Bool := s.busy

/-- The fault output line of a kind: its bit of `RX_ERROR` (R43). -/
def faultLine (s : State) (k : FaultKind) : Bool := s.rxError.getLsbD (faultBit k)

end Sys2Proof.Machine
end

