-- ==== Sys2Proof/Machine/Memory.lean ====
section
/-! DEFINITION. The byte memory behind the five buffers: a sparse list keyed by host address (R41, R82), and the
buffer operations built from it. -/

namespace Sys2Proof.Machine

/-- Bytes written since reset, by host address, addresses strictly rising. An address that is not listed has not been
written since reset; what it then reads as is the free value `RAM_INIT` (R46, log 7). -/
abbrev Memory := List Host.Cell

/-- The byte written last at `a`; `none` when nothing has been written there since reset. -/
def Memory.read? : Memory → Nat → Option Byte
  | [], _ => none
  | (b, w) :: m, a => if a = b then some w else Memory.read? m a

/-- Store `v` at `a`, keeping the addresses strictly rising. -/
def Memory.write : Memory → Nat → Byte → Memory
  | [], a, v => [(a, v)]
  | (b, w) :: m, a, v =>
    if a < b then (a, v) :: (b, w) :: m
    else if a = b then (a, v) :: m
    else (b, w) :: Memory.write m a v

/-- Store the bytes `vs` at `a`, `a + 1`, ... -/
def Memory.writeList : Memory → Nat → List Byte → Memory
  | m, _, [] => m
  | m, a, v :: vs => Memory.writeList (Memory.write m a v) (a + 1) vs

/-- All listed addresses are above `lo` and below `hi`, and they rise strictly. -/
def Memory.rises : Nat → Nat → Memory → Bool
  | _, _, [] => true
  | lo, hi, (b, _) :: m => decide (lo ≤ b) && decide (b < hi) && Memory.rises (b + 1) hi m

/-- The canonical form: addresses strictly rising, all inside the buffers 0x100-0x7FF (R60). An unlisted address reads
as "not written", which no entry says, so equal memories are equal lists. -/
def Memory.wf (m : Memory) : Bool := Memory.rises 0x100 0x800 m

/-- The five buffers (R41). -/
inductive Buffer where
  | txdata | txframe | rxframe | rxdata | batch
deriving DecidableEq, Repr

/-- The host address of a buffer's byte 0 (R41, R60). -/
def bufferBase : Buffer → Nat
  | .txdata => 0x100
  | .txframe => 0x200
  | .rxframe => 0x400
  | .rxdata => 0x600
  | .batch => 0x700

/-- A buffer's size in bytes (R41). -/
def bufferSize : Buffer → Nat
  | .txdata => 256
  | .txframe => 512
  | .rxframe => 512
  | .rxdata => 256
  | .batch => 256

/-- Whether the host may write a buffer (R41). -/
def bufferHostWritable : Buffer → Bool
  | .txdata | .rxframe | .batch => true
  | .txframe | .rxdata => false

/-- The byte of the buffers at host address `a`: the last one written since reset, else the free value `RAM_INIT`
(R82, U1). -/
def State.byteAt (s : State) (a : Nat) : Byte := (Memory.read? s.ram a).getD (Config.ramInit s.epoch a)

/-- Byte `i` of a buffer (R10). -/
def bufferByte (s : State) (b : Buffer) (i : Nat) : Byte := s.byteAt (bufferBase b + i)

/-- The slice `[i..j)` of a buffer, cut at the buffer's end (R10; the cut is log 11). -/
def bufferSlice (s : State) (b : Buffer) (i j : Nat) : List Byte :=
  (List.range (min j (bufferSize b) - i)).map fun k => bufferByte s b (i + k)

/-- Store bytes into a buffer from index 0, cut at the buffer's end (R41; the cut is log 11). -/
def storeBuffer (m : Memory) (b : Buffer) (bytes : List Byte) : Memory :=
  Memory.writeList m (bufferBase b) (bytes.take (bufferSize b))

end Sys2Proof.Machine
end

