-- ==== Sys2Proof/Machine/Operands.lean ====
section
/-! DEFINITION. The operands of the commands: what each reads from the snapshot and the buffers (30_encoding.md R90-R96,
R100, R101; 42_session.md R127). -/

namespace Sys2Proof.Machine

/-- The low byte of a 16-bit value (R64, R65). -/
def lowByte (v : Half) : Byte := BitVec.ofNat 8 (v.toNat % 256)

/-- The high byte of a 16-bit value (R64, R65). -/
def highByte (v : Half) : Byte := BitVec.ofNat 8 (v.toNat / 256)

/-- The 16-bit value with low byte `lo` and high byte `hi`: `high*256 + low` (R64, R66). -/
def joinBytes (lo hi : Byte) : Half := BitVec.ofNat 16 (hi.toNat * 256 + lo.toNat)

/-- `CMD_FLAGS.IMMEDIATE` of the running command (R22). -/
def immediate (s : State) : Bool := s.lat.inp.cmdFlags.getLsbD 0

/-- `CMD_FLAGS.BCAST` of the running command (R22). -/
def broadcast (s : State) : Bool := s.lat.inp.cmdFlags.getLsbD 1

/-- `CMD_COUNT` of the running command, as an integer (R22). -/
def count (s : State) : Nat := s.lat.inp.cmdCount.toNat

/-- The byte count of a word command: `2 * CMD_COUNT`, as an integer, not mod 256 (R96). -/
def wordCount (s : State) : Nat := 2 * count s

/-- The instruction byte of a write (R91, R135). -/
def writeCode (s : State) : Byte :=
  if immediate s then s.lat.inp.instrWrite else s.lat.inp.instrRegWrite

/-- The parameters of a read of `c` bytes (R90). -/
def readParams (s : State) (c : Nat) : List Byte := [s.lat.inp.cmdAddr, BitVec.ofNat 8 c]

/-- The parameters of a write of `c` bytes: the address, then `TXDATA[0..c)` (R91). -/
def writeParams (s : State) (c : Nat) : List Byte := s.lat.inp.cmdAddr :: bufferSlice s .txdata 0 c

/-- The parameters of ENCODE and SEND_RAW: `TXDATA[0..n)` (R96). -/
def rawParams (s : State) : List Byte := bufferSlice s .txdata 0 (count s)

/-- Whether the slot's return level asks for a status after a write or unicast ACTION: `SRL = 2` (R127). -/
def statusExpected (s : State) : Bool := s.lat.slotSrl == 2

/-- Whether `addr + bytes > REG_LIMIT`, without wrap (R36). -/
def overflowsRegisters (s : State) (bytes : Nat) : Bool :=
  decide (s.lat.inp.cmdAddr.toNat + bytes > s.lat.inp.regLimit.toNat)

/-- `V_0`, the value count of the first record of `BATCH` (R101, R137). -/
def batchValues (s : State) : Nat := (bufferByte s .batch 1).toNat

/-- Record `k` of a checked batch as it goes on the wire: the id, then its value bytes; it starts at
`o_k = k * (2 + 2V)` (R101, R138). -/
def batchRecord (s : State) (v k : Nat) : List Byte :=
  bufferByte s .batch (k * (2 + 2 * v)) ::
    bufferSlice s .batch (k * (2 + 2 * v) + 2) (k * (2 + 2 * v) + 2 + 2 * v)

/-- The parameters of SYNC_WRITE: `[addr, 2V]`, then the records (R93, R138). -/
def syncParams (s : State) : List Byte :=
  s.lat.inp.cmdAddr :: BitVec.ofNat 8 (2 * batchValues s) ::
    (List.range (count s)).flatMap (batchRecord s (batchValues s))

end Sys2Proof.Machine
end

