-- ==== Sys2Proof/Machine/Ops.lean ====
section
/-! DEFINITION. The shared operations: reset, command start, ending a command with an outcome, the Transport calls, the
phases of the sequencer and COMMIT (20_memory.md R69, 40_sequencer.md R104-R110, 70_reset_and_hazards.md R159-R161). -/

namespace Sys2Proof.Machine

/-- The state while `rst` is asserted: every piece of the block's state at its reset value, buffers unspecified anew.
The Transport, the schedule and the logs are not state of the block and stay (R46, R159-R161).
DESIGN CHOICE: an answer that never returns is kept too, so a kind of call that hung before the reset hangs again after
it; R160 and R161 do not say whether calls return then (log 25). -/
def State.resetImage (s : State) : State :=
  { State.resetOf s.nsess with
    rst := true, schedule := s.schedule, reads := s.reads, busLog := s.busLog, txAnswers := s.txAnswers,
    rxAnswers := s.rxAnswers, draws := s.draws, epoch := s.epoch + 1 }

/-- The reset input takes a level: asserting it resets the block, in any phase; releasing it leaves the block in the
reset state (R159, R160, log 14). -/
def setReset (level : Bool) (s : State) : State :=
  if level then (if s.rst then s else s.resetImage) else { s with rst := false }

/-- The slot a `CMD` byte selects; where `SLOT >= NSESS` there is none, and zeros stand for it, which nothing uses,
because CHECK rejects the command (R42, R128, log 10). -/
def selectedSlot (s : State) (cmd : Byte) : Slot :=
  (s.slots[cmd.toNat / 16]?).getD { id := 0, srl := 0, rdelay := 0, lastError := 0 }

/-- The snapshot `lat` of the input registers and the selected slot (R42). -/
def snapshot (s : State) : Latch where
  inp := s.inp
  slotId := (selectedSlot s s.inp.cmd).id
  slotSrl := (selectedSlot s s.inp.cmd).srl

/-- Command start: store `CMD`, clear `DONE`, take the snapshot, go to CHECK (R69). The other latches are emptied
(log 9). -/
def startCommand (d : Byte) (s : State) : State :=
  let s1 := { s with inp := { s.inp with cmd := d } }
  { s1 with
    done := false, phase := .check, lat := snapshot s1,
    frame := none, acc := none, rx := none, dec := none, pend := none }

/-- `raise Outcome(code, detail)`, and `finish(code, detail)`, which is the same jump: end the command, go to COMMIT
(R12). The block's only exception primitive. -/
def endWith (code : OutCode) (d : Detail) (s : State) : State :=
  { s with pend := some (code, d), phase := .commit }

/-- The Transport's answer to `TxWrite(frame)`: the accepted count, bounded by the frame's length, and the state with
the answer used up and the call logged. `none` when the call never returns (R13, R78, U2, U5; log 4, log 5). -/
def txWrite (frame : List Byte) (s : State) : Option (Nat × State) :=
  match s.txAnswers with
  | some a :: rest =>
    some (min a frame.length,
      { s with txAnswers := rest, busLog := s.busLog ++ [.txWrite frame (min a frame.length)] })
  | none :: _ => none
  | [] =>
    some (min (Config.txDraw s.draws) frame.length,
      { s with
        draws := s.draws + 1
        busLog := s.busLog ++ [.txWrite frame (min (Config.txDraw s.draws) frame.length)] })

/-- The Transport's answer to `RxRead(k)`: at most `k` bytes, and the state with the answer used up and the call
logged. `none` when the call never returns (R13, R78, U3, U5; log 4, log 5). -/
def rxRead (k : Nat) (s : State) : Option (List Byte × State) :=
  match s.rxAnswers with
  | some bytes :: rest =>
    some (bytes.take k, { s with rxAnswers := rest, busLog := s.busLog ++ [.rxRead k (bytes.take k)] })
  | none :: _ => none
  | [] =>
    some ((Config.rxDraw s.draws).take k,
      { s with
        draws := s.draws + 1
        busLog := s.busLog ++ [.rxRead k ((Config.rxDraw s.draws).take k)] })

/-- What one command puts into the phases: the data of R104's skeleton that differs from command to command. -/
structure Plan where
  /-- The first CHECK test that fails, with its outcome; `none` when all pass (R105, R145). -/
  check : Option (OutCode × Detail)
  /-- The command ends `OK` in CHECK (NOP, R111). -/
  endsInCheck : Bool
  /-- The frame BUILD makes; `none` for DECODE, which builds none (R106). -/
  frame : Option (List Byte)
  /-- The command has a TX phase. -/
  sends : Bool
  /-- The expected reply length `E`, when a reply is read (R100, R127). -/
  reply : Option Nat
  /-- The payload length a read asks for (R109). -/
  payload : Option Nat
  /-- The slot of a slot command (R128). -/
  slot : Option Nat
  /-- The command is PING (R110, R151). -/
  ping : Bool

/-- CHECK (R104, R105). -/
def checkPhase (p : Plan) (s : State) : State :=
  match p.check with
  | some (code, d) => endWith code d s
  | none => if p.endsInCheck then endWith .ok .zero s else { s with phase := .build }

/-- TX: one `TxWrite`; a call that never returns leaves the block here (R107, U5). -/
def txPhase (p : Plan) (s : State) : State :=
  match txWrite (s.frame.getD []) s with
  | none => s
  | some (a, s1) =>
    let s2 := { s1 with acc := some a }
    if a < (s.frame.getD []).length then endWith .txIncomplete .zero s2
    else if p.reply.isSome then { s2 with phase := .rx }
    else endWith .ok .zero s2

/-- RX: one `RxRead(E)`; a call that never returns leaves the block here (R108, U5). -/
def rxPhase (p : Plan) (s : State) : State :=
  match rxRead (p.reply.getD 0) s with
  | none => s
  | some (bytes, s1) =>
    let s2 := { s1 with rx := some bytes }
    if bytes.length = 0 then endWith .noReply .zero s2 else { s2 with phase := .decode }

/-- The result of decoding the command's input: the received bytes, or `RXFRAME` and `RX_RAWLEN` for DECODE
(R109, R125). -/
def decodeInput (p : Plan) (s : State) : FrameResult :=
  if p.sends then decodeFrame (s.rx.getD []) (s.rx.getD []).length
  else decodeFrame (bufferSlice s .rxframe 0 s.rxRawLen.toNat) s.rxRawLen.toNat

/-- Whether a read's reply has another payload length than it asked for (R109). -/
def payloadDiffers (p : Plan) (n : Nat) : Bool :=
  match p.payload with
  | some c => n != c
  | none => false

/-- DECODE: decode, then DEVICE_FAULT before PAYLOAD_LEN (R109, R146). -/
def decodePhase (p : Plan) (s : State) : State :=
  let dec := decodeInput p s
  let s1 := { s with dec := some dec }
  match dec with
  | .malformed d => endWith .malformed d s1
  | .checksumMismatch => endWith .checksumMismatch .zero s1
  | .valid _ err params =>
    if anyFault err then endWith .deviceFault .zero s1
    else if payloadDiffers p params.length then endWith .malformed .payloadLen s1
    else endWith .ok .zero s1

/-- BUILD: make the frame and go to TX, or end; for DECODE there is no frame, and control passes to the DECODE phase,
whose work is done in this same step (R24, R25, R104, R106, R125, log 13). -/
def buildPhase (p : Plan) (s : State) : State :=
  match p.frame with
  | none => decodePhase p { s with phase := .decode }
  | some f =>
    if p.sends then { s with frame := some f, phase := .tx }
    else endWith .ok .zero { s with frame := some f }

/-- COMMIT, results of BUILD: `TXFRAME` and `TX_LEN` when a frame was built (R110). -/
def commitFrame (s : State) : State :=
  match s.frame with
  | some f => { s with ram := storeBuffer s.ram .txframe f, txLen := BitVec.ofNat 16 f.length }
  | none => s

/-- COMMIT, results of RX: `RXFRAME` and `RX_RAWLEN` when RX ran (R110). -/
def commitRx (s : State) : State :=
  match s.rx with
  | some bytes => { s with ram := storeBuffer s.ram .rxframe bytes, rxRawLen := BitVec.ofNat 16 bytes.length }
  | none => s

/-- `slot[k].LAST_ERROR <- err`; every other field and slot stays (R32, R84). -/
def setLastError (k : Nat) (err : Byte) (slots : List Slot) : List Slot :=
  slots.modify k fun sl => { sl with lastError := err }

/-- COMMIT, results of a valid decode: the `RX_*` fields, `RXDATA`, `RSVD_ERR`, and `LAST_ERROR` of a slot command's
slot (R110, R32, R122). -/
def commitValid (p : Plan) (s : State) : State :=
  match s.dec with
  | some (.valid src err params) =>
    { s with
      rxSrcId := src, rxError := err, rxPlen := BitVec.ofNat 8 params.length
      ram := storeBuffer s.ram .rxdata params
      rsvdErr := s.rsvdErr || reservedError err
      slots := match p.slot with
        | some k => setLastError k err s.slots
        | none => s.slots }
  | _ => s

/-- `BUS_SUSPECT` after COMMIT: set by a framing error of a command that ran TX, cleared by a PING that ends OK or
DEVICE_FAULT (R110, R151). -/
def suspectAfter (p : Plan) (s : State) (code : OutCode) : Bool :=
  if s.acc.isSome && (code == .malformed || code == .checksumMismatch) then true
  else if p.ping && (code == .ok || code == .deviceFault) then false
  else s.busSuspect

/-- The pending outcome; a command never reaches COMMIT without one (R12, log 11). -/
def pendingOutcome (s : State) : OutCode × Detail := s.pend.getD (.ok, .zero)

/-- COMMIT: write every result in one step, set `DONE`, go to IDLE (R110). -/
def commitPhase (p : Plan) (s : State) : State :=
  let s1 := commitValid p (commitRx (commitFrame s))
  { s1 with
    outcome := outCodeByte (pendingOutcome s).1
    detail := detailByte (pendingOutcome s).2
    busSuspect := suspectAfter p s (pendingOutcome s).1
    done := true
    phase := .idle }

/-- One block step of a command: the phase it is in (R24, R104). In IDLE the block has no step; phase 7 is never
reached (R24, log 12). -/
def runPhase (p : Plan) (s : State) : Host.Outcome State Fault Refusal :=
  match s.phase with
  | .idle => .next s
  | .check => .next (checkPhase p s)
  | .build => .next (buildPhase p s)
  | .tx => .next (txPhase p s)
  | .rx => .next (rxPhase p s)
  | .decode => .next (decodePhase p s)
  | .commit => .next (commitPhase p s)
  | .unused => .fault .unusedPhase

end Sys2Proof.Machine
end

