-- ==== Sys2Proof/Machine/CodecCommands.lean ====
section
/-! DEFINITION. The codec commands ENCODE, SEND_RAW and DECODE (41_codec.md R123-R125). -/

namespace Sys2Proof.Machine

/-- The tests of ENCODE and SEND_RAW: BAD_ID, then COUNT_RANGE (R123, R145). -/
def rawCheck (s : State) : Option (OutCode × Detail) :=
  if s.lat.inp.cmdId.toNat > 254 then some (.usageError, .badId)
  else if count s > 253 then some (.usageError, .countRange)
  else none

/-- The frame of ENCODE and SEND_RAW (R96). -/
def rawFrame (s : State) : List Byte := encodeFrame s.lat.inp.cmdId s.lat.inp.cmdInstr (rawParams s)

/-- ENCODE and SEND_RAW differ in the TX phase only (R123, R124). -/
def rawPlan (sends : Bool) (s : State) : Plan where
  check := rawCheck s
  endsInCheck := false
  frame := some (rawFrame s)
  sends := sends
  reply := none
  payload := none
  slot := none
  ping := false

/-- DECODE: no checks, no frame, decode `RXFRAME` (R125). -/
def planDecode : Plan where
  check := none
  endsInCheck := false
  frame := none
  sends := false
  reply := none
  payload := none
  slot := none
  ping := false

/-- ENCODE (R123). -/
def execEncode (s : State) : Host.Outcome State Fault Refusal := runPhase (rawPlan false s) s

/-- SEND_RAW (R124). -/
def execSendRaw (s : State) : Host.Outcome State Fault Refusal := runPhase (rawPlan true s) s

/-- DECODE (R125). -/
def execDecode (s : State) : Host.Outcome State Fault Refusal := runPhase planDecode s

end Sys2Proof.Machine
end

