-- ==== Sys2Proof/Machine/NopFamily.lean ====
section
/-! DEFINITION. NOP and the reserved opcodes (40_sequencer.md R111, R112). -/

namespace Sys2Proof.Machine

/-- A command with no frame, no Transport call and no decode, that ends in CHECK (R25). -/
def checkOnlyPlan (failure : Option (OutCode × Detail)) : Plan where
  check := failure
  endsInCheck := true
  frame := none
  sends := false
  reply := none
  payload := none
  slot := none
  ping := false

/-- `CHECK: finish(OK, 0)` (R111). -/
def planNop : Plan := checkOnlyPlan none

/-- `CHECK: raise Outcome(ILLEGAL_CMD, 0)` (R112). -/
def planReserved : Plan := checkOnlyPlan (some (.illegalCmd, .zero))

/-- NOP (R111). -/
def execNop (s : State) : Host.Outcome State Fault Refusal := runPhase planNop s

/-- Opcode 0xB (R112). -/
def execReservedB (s : State) : Host.Outcome State Fault Refusal := runPhase planReserved s

/-- Opcode 0xC (R112). -/
def execReservedC (s : State) : Host.Outcome State Fault Refusal := runPhase planReserved s

/-- Opcode 0xD (R112). -/
def execReservedD (s : State) : Host.Outcome State Fault Refusal := runPhase planReserved s

/-- Opcode 0xE (R112). -/
def execReservedE (s : State) : Host.Outcome State Fault Refusal := runPhase planReserved s

/-- Opcode 0xF (R112). -/
def execReservedF (s : State) : Host.Outcome State Fault Refusal := runPhase planReserved s

end Sys2Proof.Machine
end

