-- ==== Sys2Proof/Machine/Session.lean ====
section
/-! DEFINITION. The device-session commands (42_session.md R127-R135). -/

namespace Sys2Proof.Machine

/-- PING: `CMD_ID` in 0..253, a frame without parameters, a 6-byte reply (R129). -/
def planPing (s : State) : Plan where
  check := if s.lat.inp.cmdId.toNat > 253 then some (.usageError, .badId) else none
  endsInCheck := false
  frame := some (encodeFrame s.lat.inp.cmdId s.lat.inp.instrPing [])
  sends := true
  reply := some 6
  payload := none
  slot := none
  ping := true

/-- The tests of a read of `c` bytes: BAD_SLOT, then COUNT_RANGE (R130, R131, R145). -/
def readCheck (slot c : Nat) (s : State) : Option (OutCode × Detail) :=
  if slot ≥ s.nsess then some (.usageError, .badSlot)
  else if c > 253 then some (.usageError, .countRange)
  else none

/-- A read of `c` bytes: the reply is waited for at every return level, and its payload must have `c` bytes
(R130, R131). -/
def readPlan (slot c : Nat) (s : State) : Plan where
  check := readCheck slot c s
  endsInCheck := false
  frame := some (encodeFrame s.lat.slotId s.lat.inp.instrRead (readParams s c))
  sends := true
  reply := some (6 + c)
  payload := some c
  slot := some slot
  ping := false

/-- The tests of a write of `c` bytes: BAD_SLOT, COUNT_RANGE (`1 + c` parameters), REG_OVERFLOW
(R132, R133, R145). -/
def writeCheck (slot c : Nat) (s : State) : Option (OutCode × Detail) :=
  if slot ≥ s.nsess then some (.usageError, .badSlot)
  else if 1 + c > 253 then some (.usageError, .countRange)
  else if overflowsRegisters s c then some (.usageError, .regOverflow)
  else none

/-- A write of `c` bytes; a status is read when the slot's return level is 2 (R132, R133). -/
def writePlan (slot c : Nat) (s : State) : Plan where
  check := writeCheck slot c s
  endsInCheck := false
  frame := some (encodeFrame s.lat.slotId (writeCode s) (writeParams s c))
  sends := true
  reply := if statusExpected s then some 6 else none
  payload := none
  slot := some slot
  ping := false

/-- ACTION: broadcast, which reads nothing and is no slot command, or unicast to the slot (R134). -/
def planAction (slot : Nat) (s : State) : Plan where
  check := if !broadcast s && decide (slot ≥ s.nsess) then some (.usageError, .badSlot) else none
  endsInCheck := false
  frame := some (encodeFrame (if broadcast s then 254 else s.lat.slotId) s.lat.inp.instrAction [])
  sends := true
  reply := if !broadcast s && statusExpected s then some 6 else none
  payload := none
  slot := if broadcast s then none else some slot
  ping := false

/-- PING (R129). -/
def execPing (s : State) : Host.Outcome State Fault Refusal := runPhase (planPing s) s

/-- READ_BYTES, `c = CMD_COUNT` (R130). -/
def execReadBytes (slot : Nat) (s : State) : Host.Outcome State Fault Refusal :=
  runPhase (readPlan slot (count s) s) s

/-- READ_WORDS, `c = 2 * CMD_COUNT` (R131). -/
def execReadWords (slot : Nat) (s : State) : Host.Outcome State Fault Refusal :=
  runPhase (readPlan slot (wordCount s) s) s

/-- WRITE_BYTES, `c = CMD_COUNT` (R132). -/
def execWriteBytes (slot : Nat) (s : State) : Host.Outcome State Fault Refusal :=
  runPhase (writePlan slot (count s) s) s

/-- WRITE_WORDS, `c = 2 * CMD_COUNT` (R133). -/
def execWriteWords (slot : Nat) (s : State) : Host.Outcome State Fault Refusal :=
  runPhase (writePlan slot (wordCount s) s) s

/-- ACTION (R134). -/
def execAction (slot : Nat) (s : State) : Host.Outcome State Fault Refusal := runPhase (planAction slot s) s

end Sys2Proof.Machine
end

