-- ==== Sys2Proof/Machine/SyncWrite.lean ====
section
/-! DEFINITION. The sync-write command (43_sync_write.md R137-R140). -/

namespace Sys2Proof.Machine

/-- The record loop of `check_batch`: `n` records still to test, the next one at offset `o`, all to have `v0` values
(R137). The test of record 0 against `V_0` never fails, so `k > 0` need not be asked. -/
def checkRecords (s : State) (v0 : Nat) : Nat → Nat → Option Detail
  | 0, _ => none
  | n + 1, o =>
    if o + 2 > 256 then some .batchOverrun
    else if o + 2 + 2 * (bufferByte s .batch (o + 1)).toNat > 256 then some .batchOverrun
    else if (bufferByte s .batch o).toNat > 253 then some .badId
    else if (bufferByte s .batch (o + 1)).toNat ≠ v0 then some .syncMismatch
    else checkRecords s v0 n (o + 2 + 2 * (bufferByte s .batch (o + 1)).toNat)

/-- `check_batch(N, addr)` (R137). -/
def checkBatch (s : State) : Option (OutCode × Detail) :=
  if count s = 0 then some (.usageError, .syncEmpty)
  else match checkRecords s (batchValues s) (count s) 0 with
    | some d => some (.usageError, d)
    | none =>
      if 2 + count s * (1 + 2 * batchValues s) > 253 then some (.usageError, .countRange)
      else if overflowsRegisters s (2 * batchValues s) then some (.usageError, .regOverflow)
      else none

/-- SYNC_WRITE: one broadcast frame, no reply (R138). -/
def planSyncWrite (s : State) : Plan where
  check := checkBatch s
  endsInCheck := false
  frame := some (encodeFrame 254 s.lat.inp.instrSyncWrite (syncParams s))
  sends := true
  reply := none
  payload := none
  slot := none
  ping := false

/-- SYNC_WRITE (R138). -/
def execSyncWrite (s : State) : Host.Outcome State Fault Refusal := runPhase (planSyncWrite s) s

end Sys2Proof.Machine
end

