-- ==== Sys2Proof/Machine/Dispatch.lean ====
section
/-! DEFINITION. One block step of each command: one arm per constructor. -/

namespace Sys2Proof.Machine

def exec (i : Instr) (s : State) : Host.Outcome State Fault Refusal :=
  match i with
  | .nop _ => Sys2Proof.Machine.execNop s
  | .ping _ => Sys2Proof.Machine.execPing s
  | .readBytes slot => Sys2Proof.Machine.execReadBytes slot s
  | .readWords slot => Sys2Proof.Machine.execReadWords slot s
  | .writeBytes slot => Sys2Proof.Machine.execWriteBytes slot s
  | .writeWords slot => Sys2Proof.Machine.execWriteWords slot s
  | .action slot => Sys2Proof.Machine.execAction slot s
  | .syncWrite _ => Sys2Proof.Machine.execSyncWrite s
  | .encode _ => Sys2Proof.Machine.execEncode s
  | .sendRaw _ => Sys2Proof.Machine.execSendRaw s
  | .decode _ => Sys2Proof.Machine.execDecode s
  | .reservedB _ => Sys2Proof.Machine.execReservedB s
  | .reservedC _ => Sys2Proof.Machine.execReservedC s
  | .reservedD _ => Sys2Proof.Machine.execReservedD s
  | .reservedE _ => Sys2Proof.Machine.execReservedE s
  | .reservedF _ => Sys2Proof.Machine.execReservedF s

end Sys2Proof.Machine
end

