-- ==== Sys2Proof/Machine/HostPort.lean ====
section
/-! DEFINITION. The host port: the address map and the effect of one host access (20_memory.md R59-R73). -/

namespace Sys2Proof.Machine

/-- A field of a session slot (R30). -/
inductive SlotField where
  | id | srl | rdelay | lastError
deriving DecidableEq, Repr

/-- What stands at a host address (R60). -/
inductive Loc where
  | cmd | status | outcome | detail | ctrl | nsessRo
  | cmdId | cmdAddr | cmdCount | cmdFlags | cmdInstr
  | regLimitLo | regLimitHi
  | rxSrcId | rxError | rxPlen | fault | faultFirst
  | rxRawLenLo | rxRawLenHi | txLenLo | txLenHi
  | instrPing | instrRead | instrWrite | instrRegWrite | instrAction | instrSyncWrite
  | slot (k : Nat) (f : SlotField)
  | buffer (b : Buffer)
  | reserved
deriving DecidableEq, Repr

/-- The registers below the session table (R60); every other address there is reserved (R62). -/
def registerAt : Nat → Loc
  | 0x000 => .cmd
  | 0x001 => .status
  | 0x002 => .outcome
  | 0x003 => .detail
  | 0x004 => .ctrl
  | 0x005 => .nsessRo
  | 0x008 => .cmdId
  | 0x009 => .cmdAddr
  | 0x00A => .cmdCount
  | 0x00B => .cmdFlags
  | 0x00C => .cmdInstr
  | 0x00E => .regLimitLo
  | 0x00F => .regLimitHi
  | 0x010 => .rxSrcId
  | 0x011 => .rxError
  | 0x012 => .rxPlen
  | 0x013 => .fault
  | 0x014 => .faultFirst
  | 0x016 => .rxRawLenLo
  | 0x017 => .rxRawLenHi
  | 0x018 => .txLenLo
  | 0x019 => .txLenHi
  | 0x020 => .instrPing
  | 0x021 => .instrRead
  | 0x022 => .instrWrite
  | 0x023 => .instrRegWrite
  | 0x024 => .instrAction
  | 0x025 => .instrSyncWrite
  | _ => .reserved

/-- Field `k` of a session slot's four addresses (R30). -/
def slotFieldAt (k : Nat) : SlotField :=
  if k = 0 then .id else if k = 1 then .srl else if k = 2 then .rdelay else .lastError

/-- The address map of an instance with `n` slots (R60, R62). -/
def locate (n a : Nat) : Loc :=
  if a < 0x040 then registerAt a
  else if a < 0x080 then
    (if (a - 0x040) / 4 < n then .slot ((a - 0x040) / 4) (slotFieldAt ((a - 0x040) % 4)) else .reserved)
  else if a < 0x100 then .reserved
  else if a < 0x200 then .buffer .txdata
  else if a < 0x400 then .buffer .txframe
  else if a < 0x600 then .buffer .rxframe
  else if a < 0x700 then .buffer .rxdata
  else .buffer .batch

/-- The value of a session-slot field (R30). -/
def slotFieldValue (sl : Slot) : SlotField → Byte
  | .id => sl.id
  | .srl => sl.srl
  | .rdelay => sl.rdelay
  | .lastError => sl.lastError

/-- What the location at host address `a` reads as (R60, R62). -/
def readLoc (l : Loc) (a : Nat) (s : State) : Byte :=
  match l with
  | .cmd => s.inp.cmd
  | .status => statusByte s
  | .outcome => s.outcome
  | .detail => s.detail
  | .ctrl => s.ctrl
  | .nsessRo => BitVec.ofNat 8 s.nsess
  | .cmdId => s.inp.cmdId
  | .cmdAddr => s.inp.cmdAddr
  | .cmdCount => s.inp.cmdCount
  | .cmdFlags => s.inp.cmdFlags
  | .cmdInstr => s.inp.cmdInstr
  | .regLimitLo => lowByte s.inp.regLimit
  | .regLimitHi => highByte s.inp.regLimit
  | .rxSrcId => s.rxSrcId
  | .rxError => s.rxError
  | .rxPlen => s.rxPlen
  | .fault => faultVector s.rxError
  | .faultFirst => BitVec.ofNat 8 (firstFault s.rxError)
  | .rxRawLenLo => lowByte s.rxRawLen
  | .rxRawLenHi => highByte s.rxRawLen
  | .txLenLo => lowByte s.txLen
  | .txLenHi => highByte s.txLen
  | .instrPing => s.inp.instrPing
  | .instrRead => s.inp.instrRead
  | .instrWrite => s.inp.instrWrite
  | .instrRegWrite => s.inp.instrRegWrite
  | .instrAction => s.inp.instrAction
  | .instrSyncWrite => s.inp.instrSyncWrite
  | .slot k f => match s.slots[k]? with
    | some sl => slotFieldValue sl f
    | none => 0
  | .buffer _ => s.byteAt a
  | .reserved => 0

/-- `HostRead(a)`: the value the host port returns. It changes nothing (R59, R71). -/
def hostRead (a : Addr) (s : State) : Byte := readLoc (locate s.nsess a.toNat) a.toNat s

/-- The locations a host write to which is ignored while `BUSY = 1` and sets `OVERRUN` (R70). -/
def blockedWhileBusy : Loc → Bool
  | .cmd | .cmdId | .cmdAddr | .cmdCount | .cmdFlags | .cmdInstr
  | .regLimitLo | .regLimitHi | .rxRawLenLo | .rxRawLenHi
  | .instrPing | .instrRead | .instrWrite | .instrRegWrite | .instrAction | .instrSyncWrite => true
  | .slot _ .id | .slot _ .srl | .slot _ .rdelay => true
  | .slot _ .lastError => false
  | .buffer b => bufferHostWritable b
  | .status | .outcome | .detail | .ctrl | .nsessRo
  | .rxSrcId | .rxError | .rxPlen | .fault | .faultFirst | .txLenLo | .txLenHi | .reserved => false

/-- A host write to a session-slot field: illegal values, and writes to `LAST_ERROR`, are ignored (R30, R31, R61). -/
def writeSlotField (f : SlotField) (d : Byte) (sl : Slot) : Slot :=
  match f with
  | .id => if d.toNat ≤ 253 then { sl with id := d } else sl
  | .srl => if d.toNat ≤ 2 then { sl with srl := d } else sl
  | .rdelay => if d.toNat ≤ 254 then { sl with rdelay := d } else sl
  | .lastError => sl

/-- A host write to `STATUS`: 1 clears `DONE`, `OVERRUN`, `RSVD_ERR`; the other bits are read only (R27). -/
def writeStatus (d : Byte) (s : State) : State :=
  { s with
    done := s.done && !d.getLsbD 1
    overrun := s.overrun && !d.getLsbD 2
    rsvdErr := s.rsvdErr && !d.getLsbD 4 }

/-- The effect of a host write that is not blocked (R26, R61, R62, R69, R72). Reserved bits are not stored
(R22, R34, log 22). -/
def writeLoc (l : Loc) (a : Nat) (d : Byte) (s : State) : State :=
  match l with
  | .cmd => startCommand d s
  | .status => writeStatus d s
  | .ctrl => { s with ctrl := d &&& 0x01 }
  | .cmdId => { s with inp := { s.inp with cmdId := d } }
  | .cmdAddr => { s with inp := { s.inp with cmdAddr := d } }
  | .cmdCount => { s with inp := { s.inp with cmdCount := d } }
  | .cmdFlags => { s with inp := { s.inp with cmdFlags := d &&& 0x03 } }
  | .cmdInstr => { s with inp := { s.inp with cmdInstr := d } }
  | .regLimitLo => { s with inp := { s.inp with regLimit := joinBytes d (highByte s.inp.regLimit) } }
  | .regLimitHi => { s with inp := { s.inp with regLimit := joinBytes (lowByte s.inp.regLimit) d } }
  | .rxRawLenLo => { s with rxRawLen := joinBytes d (highByte s.rxRawLen) }
  | .rxRawLenHi => { s with rxRawLen := joinBytes (lowByte s.rxRawLen) d }
  | .instrPing => { s with inp := { s.inp with instrPing := d } }
  | .instrRead => { s with inp := { s.inp with instrRead := d } }
  | .instrWrite => { s with inp := { s.inp with instrWrite := d } }
  | .instrRegWrite => { s with inp := { s.inp with instrRegWrite := d } }
  | .instrAction => { s with inp := { s.inp with instrAction := d } }
  | .instrSyncWrite => { s with inp := { s.inp with instrSyncWrite := d } }
  | .slot k f => { s with slots := s.slots.modify k (writeSlotField f d) }
  | .buffer b => if bufferHostWritable b then { s with ram := Memory.write s.ram a d } else s
  | .outcome | .detail | .nsessRo | .rxSrcId | .rxError | .rxPlen | .fault | .faultFirst
  | .txLenLo | .txLenHi | .reserved => s

/-- `HostWrite(a, d)`: ignored while `rst` is asserted (R159); to a blocked location while busy ignored with `OVERRUN`
(R70); otherwise the location's effect. -/
def hostWrite (a : Addr) (d : Byte) (s : State) : State :=
  if s.rst then s
  else if s.busy && blockedWhileBusy (locate s.nsess a.toNat) then { s with overrun := true }
  else writeLoc (locate s.nsess a.toNat) a.toNat d s

/-- `MemRead(a, 2)`: two byte reads, combined little-endian (R11, R64). -/
def hostRead16 (a : Addr) (s : State) : Half := joinBytes (hostRead a s) (hostRead (a + 1) s)

/-- `MemWrite(a, 2, v)`: the low byte, then the high byte (R11, R64). -/
def hostWrite16 (a : Addr) (v : Half) (s : State) : State :=
  hostWrite (a + 1) (highByte v) (hostWrite a (lowByte v) s)

end Sys2Proof.Machine
end

