-- ==== Sys2Proof/Machine/Turns.lean ====
section
/-! DEFINITION. The turns of the agents: the block's step, the host's read, and placing a command (R19, R24, R159). -/

namespace Sys2Proof.Machine

/-- The block's turn: nothing while `rst` is asserted or in IDLE (R24, R158, R159, log 3), else one phase of the command
in the snapshot's `CMD` (R95, R104). -/
def blockTurn (s : State) : Host.Outcome State Fault Refusal :=
  if s.rst || !s.busy then .next s else exec (decodeCmd s.lat.inp.cmd) s

/-- The host's read: the value is logged, nothing else changes (R71, R72). -/
def readTurn (a : Addr) (s : State) : State := { s with reads := s.reads ++ [hostRead a s] }

/-- A command placed as if the host had just written it to `CMD` (R69, log 15). -/
def placeCommand (nbits w : Nat) (s : State) : State :=
  startCommand (BitVec.ofNat 8 (w % 2 ^ nbits)) { s with rst := false, schedule := [] }

end Sys2Proof.Machine
end

