-- ==== Sys2Proof/Machine/Step.lean ====
section
/-! DEFINITION. One step of the machine, and the state whose next step runs a given command. -/

namespace Sys2Proof.Machine

/-- One step: the agent whose turn it is moves (R19, log 2). With an empty schedule it is the block's turn. -/
def step (s : State) : Host.Outcome State Fault Refusal :=
  match s.schedule with
  | [] => blockTurn s
  | .block :: rest => blockTurn { s with schedule := rest }
  | .read a :: rest => .next (readTurn a { s with schedule := rest })
  | .write a d :: rest => .next (hostWrite a d { s with schedule := rest })
  | .rst level :: rest => .next (setReset level { s with schedule := rest })

/-- `s` with the command whose bits are `w` just started, so that the next step is its first block step: what the host
write of `CMD` does (R69), with reset released and no other turn before the block's (log 15). -/
def State.withFetchWord (s : State) (nbits w : Nat) : State := placeCommand nbits w s

end Sys2Proof.Machine
end

