-- ==== Sys2Proof/Machine/HostProgram.lean ====
section
/-! DEFINITION. The notation of host programs (30_encoding.md R102, R103) as data, and a host that runs one. The
operations describe the host, not the block: `step` does not use this file; only `wr` and `rd` reach the block
(log 20). -/

namespace Sys2Proof.Machine

/-- A primitive line, labels resolved to line numbers (R102). -/
inductive HostLine where
  | wr (a : Addr) (v : Byte)
  | rd (a : Addr)
  | brbit (a : Addr) (bit : Nat) (line : Nat)
  | jmp (line : Nat)
  | halt
deriving DecidableEq, Repr

/-- The host running a program: the line it is at, the values its `rd` lines recorded, oldest first, and whether it
has ended (R102). -/
structure HostAgent where
  line : Nat
  results : List Byte
  ended : Bool
deriving DecidableEq, Repr

/-- The host runs one line against the block (R102). Running past the last line ends the program. -/
def hostLine (program : List HostLine) (h : HostAgent) (s : State) : HostAgent × State :=
  match program[h.line]? with
  | none | some .halt => ({ h with ended := true }, s)
  | some (.wr a v) => ({ h with line := h.line + 1 }, hostWrite a v s)
  | some (.rd a) => ({ h with line := h.line + 1, results := h.results ++ [hostRead a s] }, s)
  | some (.brbit a bit line) =>
    ({ h with line := if (hostRead a s).getLsbD bit then line else h.line + 1 }, s)
  | some (.jmp line) => ({ h with line := line }, s)

/-- `cmd OP, S`: `wr CMD, (S << 4) | OP` (R103). -/
def lineCmd (i : Instr) : List HostLine := [.wr 0x000 (encode i)]

/-- `wait` as line number `here`: `brbit STATUS, 0` to itself (R103). -/
def lineWait (here : Nat) : List HostLine := [.brbit 0x001 0 here]

/-- `wr16 A, V` (R103). -/
def lineWr16 (a : Addr) (v : Half) : List HostLine := [.wr a (lowByte v), .wr (a + 1) (highByte v)]

/-- `rd16 A` (R103). -/
def lineRd16 (a : Addr) : List HostLine := [.rd a, .rd (a + 1)]

/-- `wrbuf A, b0 b1 .. bk` (R103). -/
def lineWrbuf (a : Addr) : List Byte → List HostLine
  | [] => []
  | b :: bs => .wr a b :: lineWrbuf (a + 1) bs

/-- `clrdone` (R103). -/
def lineClrdone : List HostLine := [.wr 0x001 0x02]

/-- The host-port write a line makes, if any: a program's encoding lists these in execution order (R103). -/
def lineTransaction : HostLine → Option (Addr × Byte)
  | .wr a v => some (a, v)
  | .rd _ | .brbit _ _ _ | .jmp _ | .halt => none

/-- The turn of the schedule a line asks for: only `wr`, `rd` and the read of `brbit` reach the block (R102). -/
def lineTurn : HostLine → Option Turn
  | .wr a v => some (.write a v)
  | .rd a => some (.read a)
  | .brbit a _ _ => some (.read a)
  | .jmp _ | .halt => none

end Sys2Proof.Machine
end

