-- ==== Sys2Proof/Safety.lean ====
section
/-! DEFINITION. What the claims speak in: chains of block steps, the states a command leaves, and the invariants. Each
is written from the rule it cites, field by field, not by calling the operation it is about. -/

namespace Sys2Proof.Machine

/-! ### Runs of one command -/

/-- `n` block steps of command `i` lead from `s` to `t`, each answering a next state. -/
def ExecChain (i : Instr) : Nat → State → State → Prop
  | 0, s, t => s = t
  | n + 1, s, t => ∃ m, exec i s = .next m ∧ ExecChain i n m t

/-- `n` steps of the machine lead from `s` to `t`, each answering a next state. -/
def StepChain : Nat → State → State → Prop
  | 0, s, t => s = t
  | n + 1, s, t => ∃ m, step s = .next m ∧ StepChain n m t

/-- A command has just started: CHECK is next and no latch but the snapshot is filled (R42, R69). -/
def Started (s : State) : Prop :=
  s.phase = .check ∧ s.frame = none ∧ s.acc = none ∧ s.rx = none ∧ s.dec = none ∧ s.pend = none

/-- The bytes `bs` laid over `old` from address `base` on. -/
def overlay (base : Nat) (bs : List Byte) (old : Nat → Byte) (a : Nat) : Byte :=
  if base ≤ a ∧ a < base + bs.length then bs.getD (a - base) 0 else old a

/-- The buffers hold the bytes `g`: reading any address of memory `m` after reset number `epoch` gives `g`. -/
def MemoryReads (m : Memory) (epoch : Nat) (g : Nat → Byte) : Prop :=
  ∀ a, (Memory.read? m a).getD (Config.ramInit epoch a) = g a

/-- The bytes of `TXDATA[0..n)` as the host stored them (R41). -/
def txdataBytes (s : State) (n : Nat) : List Byte := (List.range n).map fun k => s.byteAt (0x100 + k)

/-- `s` after a command that ended with an outcome and changed nothing else the host can see (R105, R111, R112). -/
def endedOnly (s : State) (code : OutCode) (d : Detail) : State :=
  { s with
    phase := .idle, done := true, outcome := outCodeByte code, detail := detailByte d, pend := some (code, d) }

/-- `s` after a command that built frame `f` without sending it and ended OK; `m` is the memory after (R123). -/
def builtOnly (s : State) (f : List Byte) (m : Memory) : State :=
  { endedOnly s .ok .zero with
    frame := some f, txLen := BitVec.ofNat 16 f.length, ram := m }

/-- `s` after a command that sent frame `f` whole and read no reply (R107, R110); `answers` are the Transport's
remaining answers. -/
def sentOnly (s : State) (f : List Byte) (answers : List (Option Nat)) (m : Memory) : State :=
  { builtOnly s f m with
    acc := some f.length, txAnswers := answers, busLog := s.busLog ++ [.txWrite f f.length] }

/-- What a command that sends and reads a reply is given and answers: the frame, the expected reply length, the reply,
what it decodes to, and the Transport's remaining answers. -/
structure Exchange where
  frame : List Byte
  expected : Nat
  reply : List Byte
  src : Byte
  err : Byte
  params : List Byte
  txRest : List (Option Nat)
  rxRest : List (Option (List Byte))

/-- The Transport takes the frame whole and answers the read with a reply that fits and decodes as valid
(R78, R117). -/
def Exchange.happens (x : Exchange) (s : State) : Prop :=
  s.txAnswers = some x.frame.length :: x.txRest ∧ s.rxAnswers = some x.reply :: x.rxRest ∧
    x.reply.length ≤ x.expected ∧ decodeFrame x.reply x.reply.length = .valid x.src x.err x.params

/-- `s` after a command whose exchange `x` happened and that ended with `code` and `d` (R110); `suspect` and `slots`
are `BUS_SUSPECT` and the session table after, `m` the memory after. -/
def repliedTo (s : State) (x : Exchange) (code : OutCode) (d : Detail) (suspect : Bool) (slots : List Slot)
    (m : Memory) : State :=
  { s with
    phase := .idle, done := true, outcome := outCodeByte code, detail := detailByte d
    txLen := BitVec.ofNat 16 x.frame.length, rxRawLen := BitVec.ofNat 16 x.reply.length
    rxSrcId := x.src, rxError := x.err, rxPlen := BitVec.ofNat 8 x.params.length
    rsvdErr := s.rsvdErr || x.err.getLsbD 7, busSuspect := suspect, slots := slots, ram := m
    frame := some x.frame, acc := some x.frame.length, rx := some x.reply
    dec := some (.valid x.src x.err x.params), pend := some (code, d)
    txAnswers := x.txRest, rxAnswers := x.rxRest
    busLog := s.busLog ++ [.txWrite x.frame x.frame.length, .rxRead x.expected x.reply] }

/-- The buffers after an exchange: the frame in `TXFRAME`, the reply in `RXFRAME`, the payload in `RXDATA`, every other
byte as before (R41, R110). -/
def exchangeBytes (s : State) (x : Exchange) : Nat → Byte :=
  overlay 0x200 x.frame (overlay 0x400 x.reply (overlay 0x600 x.params s.byteAt))

/-- The session table with `LAST_ERROR` of slot `k` set to `err`, every other field as in `slots` (R32). -/
def withLastError (slots : List Slot) (k : Nat) (err : Byte) : List Slot :=
  slots.mapIdx fun j sl => if j = k then { sl with lastError := err } else sl

/-- The outcome of a valid reply without a payload test (R109). -/
def replyCode (err : Byte) : OutCode := if err &&& 0x7F = 0 then .ok else .deviceFault

/-! ### Which commands do what -/

/-- The slot commands (R128): the slot whose `LAST_ERROR` COMMIT may write; ACTION only when `BCAST = 0`. -/
def slotOf (i : Instr) (s : State) : Option Nat :=
  match i with
  | .readBytes k | .readWords k | .writeBytes k | .writeWords k => some k
  | .action k => if s.lat.inp.cmdFlags.getLsbD 1 then none else some k
  | _ => none

/-- The expected reply length `E` of a command that reads a reply, and nothing for one that reads none
(R100, R127). -/
def expectedReply (i : Instr) (s : State) : Option Nat :=
  match i with
  | .ping _ => some 6
  | .readBytes _ => some (6 + s.lat.inp.cmdCount.toNat)
  | .readWords _ => some (6 + 2 * s.lat.inp.cmdCount.toNat)
  | .writeBytes _ | .writeWords _ => if s.lat.slotSrl = 2 then some 6 else none
  | .action _ => if s.lat.inp.cmdFlags.getLsbD 1 = false ∧ s.lat.slotSrl = 2 then some 6 else none
  | _ => none

/-- The bus commands: those with a TX phase (R18, R25). -/
def isBusCommand : Instr → Bool
  | .ping _ | .readBytes _ | .readWords _ | .writeBytes _ | .writeWords _ | .action _ | .syncWrite _ | .sendRaw _ => true
  | .nop _ | .encode _ | .decode _ | .reservedB _ | .reservedC _ | .reservedD _ | .reservedE _ | .reservedF _ => false

/-- The host addresses whose writes are blocked while busy, as R70 lists them, for `n` slots. -/
def BlockedAddress (n a : Nat) : Prop :=
  a = 0x000 ∨ (0x008 ≤ a ∧ a ≤ 0x00C) ∨ a = 0x00E ∨ a = 0x00F ∨ a = 0x016 ∨ a = 0x017 ∨
    (0x020 ≤ a ∧ a ≤ 0x025) ∨ (0x040 ≤ a ∧ a < 0x080 ∧ (a - 0x040) / 4 < n ∧ (a - 0x040) % 4 ≠ 3) ∨
    (0x100 ≤ a ∧ a < 0x200) ∨ (0x400 ≤ a ∧ a < 0x600) ∨ 0x700 ≤ a

/-- The read-only host addresses of R60, for `n` slots. -/
def ReadOnlyAddress (n a : Nat) : Prop :=
  a = 0x002 ∨ a = 0x003 ∨ a = 0x005 ∨ (0x010 ≤ a ∧ a ≤ 0x014) ∨ a = 0x018 ∨ a = 0x019 ∨
    (0x040 ≤ a ∧ a < 0x080 ∧ (a - 0x040) / 4 < n ∧ (a - 0x040) % 4 = 3) ∨
    (0x200 ≤ a ∧ a < 0x400) ∨ (0x600 ≤ a ∧ a < 0x700)

/-- The reserved host addresses of R62, for `n` slots. -/
def ReservedAddress (n a : Nat) : Prop :=
  a = 0x006 ∨ a = 0x007 ∨ a = 0x00D ∨ a = 0x015 ∨ (0x01A ≤ a ∧ a ≤ 0x01F) ∨ (0x026 ≤ a ∧ a ≤ 0x03F) ∨
    (0x040 ≤ a ∧ a < 0x080 ∧ n ≤ (a - 0x040) / 4) ∨ (0x080 ≤ a ∧ a ≤ 0x0FF)

/-- Every answer the Transport still holds is one that returns: the fairness assumption of R83. -/
def TransportReturns (s : State) : Prop := none ∉ s.txAnswers ∧ none ∉ s.rxAnswers

/-- The value bytes of the `V` 16-bit values of a `BATCH` record at offset `o`, after its id and count (R101). -/
def batchValueBytes (s : State) (o v : Nat) : List Byte :=
  (List.range (2 * v)).map fun j => s.byteAt (0x700 + o + 2 + j)

/-- `BATCH` holds `n` records of `v` values each, laid end to end, with ids in 0..253 (R101, R137). -/
def BatchHolds (s : State) (n v : Nat) : Prop :=
  n * (2 + 2 * v) ≤ 256 ∧
    ∀ k < n, (s.byteAt (0x700 + k * (2 + 2 * v))).toNat ≤ 253 ∧ (s.byteAt (0x700 + k * (2 + 2 * v) + 1)).toNat = v

/-- The parameters a sync-write of such a batch sends (R93). -/
def syncPacketParams (s : State) (n v : Nat) : List Byte :=
  [s.lat.inp.cmdAddr, BitVec.ofNat 8 (2 * v)] ++
    (List.range n).flatMap fun k =>
      s.byteAt (0x700 + k * (2 + 2 * v)) :: batchValueBytes s (k * (2 + 2 * v)) v

/-! ### Invariants -/

/-- `1 <= NSESS <= 16`, and the ranges of the session fields (R7, R30, R31). -/
def SlotsLegal (s : State) : Prop :=
  1 ≤ s.nsess ∧ s.nsess ≤ 16 ∧
    ∀ sl ∈ s.slots, sl.id.toNat ≤ 253 ∧ sl.srl.toNat ≤ 2 ∧ sl.rdelay.toNat ≤ 254

/-- Reserved register bits hold 0: `CTRL[7:1]` and `CMD_FLAGS[7:2]` (R22, R34, R62). -/
def ReservedBitsZero (s : State) : Prop := s.ctrl &&& 0xFE = 0 ∧ s.inp.cmdFlags &&& 0xFC = 0

/-- While a command runs, the snapshot agrees with the live registers and the live slot (R42). -/
def LatchCurrent (s : State) : Prop :=
  s.phase ≠ .idle →
    s.lat.inp = s.inp ∧
      ∀ sl, s.slots[s.inp.cmd.toNat / 16]? = some sl → s.lat.slotId = sl.id ∧ s.lat.slotSrl = sl.srl

/-- While `rst` is asserted everything of the block is at its reset value (R159). -/
def HeldAtReset (s : State) : Prop :=
  s.rst = true →
    s = { State.resetOf s.nsess with
          rst := true, schedule := s.schedule, reads := s.reads, busLog := s.busLog, txAnswers := s.txAnswers,
          rxAnswers := s.rxAnswers, draws := s.draws, epoch := s.epoch }

/-- In each phase exactly the latches are filled that the phases before it fill (R24, R42). -/
def LatchesFit (s : State) : Prop :=
  match s.phase with
  | .idle => True
  | .check | .build => s.frame = none ∧ s.acc = none ∧ s.rx = none ∧ s.dec = none ∧ s.pend = none
  | .tx => s.frame.isSome ∧ s.acc = none ∧ s.rx = none ∧ s.dec = none ∧ s.pend = none
  | .rx => (∃ f, s.frame = some f ∧ s.acc = some f.length) ∧ s.rx = none ∧ s.dec = none ∧ s.pend = none
  | .decode =>
    (∃ f bytes, s.frame = some f ∧ s.acc = some f.length ∧ s.rx = some bytes ∧ bytes ≠ []) ∧
      s.dec = none ∧ s.pend = none
  | .commit => s.pend.isSome ∧ (s.acc.isSome → s.frame.isSome) ∧ (s.rx.isSome → s.acc.isSome)
  | .unused => False

/-- The calls of a log come as `[TxWrite]` or `[TxWrite, RxRead]`, one group after another (R79). The Bool says whether
the call before was a `TxWrite`. -/
def callsBracketed : Bool → List BusCall → Bool
  | _, [] => true
  | _, .txWrite _ _ :: l => callsBracketed true l
  | true, .rxRead _ _ :: l => callsBracketed false l
  | false, .rxRead _ _ :: _ => false

/-- The history of Transport calls is bracketed, and in RX the last call was the command's `TxWrite` (R79). -/
def CallsInOrder (s : State) : Prop :=
  callsBracketed false s.busLog = true ∧
    (s.phase = .rx → ∃ l f a, s.busLog = l ++ [.txWrite f a])

/-- A call's answer keeps the Transport's bound (R13, R78). -/
def CallBounded : BusCall → Prop
  | .txWrite f a => a ≤ f.length
  | .rxRead k bytes => bytes.length ≤ k

/-- A frame the block may send: a packet of R85 with an id in 0..254 and at most 253 parameters (R87, R89). -/
def LegalFrame (f : List Byte) : Prop :=
  ∃ (id code : Byte) (params : List Byte), id.toNat ≤ 254 ∧ params.length ≤ 253 ∧ f = encodeFrame id code params

/-- CHECK passed the command that is about to build: from CHECK it goes on to BUILD (R105). -/
def CheckPassed (s : State) : Prop :=
  s.phase = .build → exec (decodeCmd s.lat.inp.cmd) { s with phase := .check } = .next s

/-- Nothing but legal frames is latched or has been sent, with the invariants this rests on (R87, R89, R106). -/
def FramesLegal (s : State) : Prop :=
  SlotsLegal s ∧ LatchCurrent s ∧ CheckPassed s ∧ (s.phase = .tx → s.frame.isSome) ∧
    (∀ f, s.frame = some f → LegalFrame f) ∧ ∀ f a, BusCall.txWrite f a ∈ s.busLog → LegalFrame f

end Sys2Proof.Machine
end

