-- ==== Sys2Proof/Certificates/Slice0/Obligations.lean ====
section
/-! DEFINITION. The statements for the provers: one `def Obligations.<Name> : Prop` each. -/

open Sys2Proof Sys2Proof.Machine

/-! ### Encoding, fetching, stepping -/

/-- Decoding the byte of a well-formed command gives it back, whatever follows the byte (R26, R95). -/
def Obligations.DecodeOfEncodeIsInstr : Prop :=
  ∀ (i : Instr) (rest : List Byte), i.wf = true → decode (Sys2Proof.encode i :: rest) = .ok (i, rest)

/-- Each of the 256 values of `CMD` decodes to a well-formed command whose byte it is (R95). -/
def Obligations.EveryByteDecodesAndReencodes : Prop :=
  ∀ b : Byte, (decodeCmd b).wf = true ∧ Sys2Proof.encode (decodeCmd b) = b

/-- Words written out from the encoding columns of R95 decode to their commands: `0000_0001` is PING, `0001_0010` is
READ_BYTES on slot 1, `0101_0101` WRITE_WORDS on slot 5, `0000_0111` SYNC_WRITE, `0000_1010` DECODE, `0011_1011`
the reserved opcode 0xB. -/
def Obligations.WrittenWordsDecode : Prop :=
  decodeTableWord 8 0b00000001 = some (.ping 0) ∧ decodeTableWord 8 0b00010010 = some (.readBytes 1) ∧
    decodeTableWord 8 0b01010101 = some (.writeWords 5) ∧ decodeTableWord 8 0b00000111 = some (.syncWrite 0) ∧
    decodeTableWord 8 0b00001010 = some (.decode 0) ∧ decodeTableWord 8 0b00111011 = some (.reservedB 3)

/-- On the block's turn, with a command running and reset released, a step is `exec` of the command in the snapshot's
`CMD`; a turn taken from the schedule is used up, and with an empty schedule it is the block's turn (log 2). -/
def Obligations.StepRunsDecodedInstruction : Prop :=
  ∀ (s : State) (i : Instr), s.rst = false → s.phase ≠ .idle → decode [s.lat.inp.cmd] = .ok (i, []) →
    (s.schedule = [] → step s = exec i s) ∧
    ∀ rest, s.schedule = .block :: rest → step s = exec i { s with schedule := rest }

/-- An idle block, and a block under reset, takes no step: its turn changes nothing but the schedule
(R24, R158, R159; that a turn then passes without effect is log 3). A Transport call that never returns leaves the block
in TX or in RX, with nothing changed (93 U5, log 5). -/
def Obligations.BlockWithoutStepStays : Prop :=
  (∀ s : State, s.rst = true ∨ s.phase = .idle →
    (s.schedule = [] → step s = .next s) ∧
    ∀ rest, s.schedule = .block :: rest → step s = .next { s with schedule := rest }) ∧
  ∀ (i : Instr) (s : State),
    (s.phase = .tx → s.txAnswers.head? = some none → exec i s = .next s) ∧
    (s.phase = .rx → s.rxAnswers.head? = some none → exec i s = .next s)

/-- In every phase a run reaches, every command answers a next state; when the Transport's calls return, a running
command moves to a later phase, or from COMMIT to IDLE, so no phase is visited twice (R24, R25). -/
def Obligations.PhasesGoForward : Prop :=
  ∀ (i : Instr) (s : State), s.phase ≠ .unused →
    ∃ t, exec i s = .next t ∧
      (s.phase ≠ .idle → TransportReturns s →
        (phaseCode s.phase < phaseCode t.phase ∧ t.phase ≠ .unused) ∨ (s.phase = .commit ∧ t.phase = .idle))

/-- Left to itself, with a Transport whose calls return, the block is idle again within seven block steps, whatever
the command and the state it is in (R25, R83). -/
def Obligations.CommandsEndWithinSevenSteps : Prop :=
  ∀ s : State, s.rst = false → s.phase ≠ .unused → s.schedule = [] → TransportReturns s →
    ∃ n ≤ 7, ∃ t, StepChain n s t ∧ t.phase = .idle

/-! ### The packet codec -/

/-- R114, all four points: sum and checksum make 255 mod 256, and no other checksum byte does; changing one byte changes the checksum; swapping two
bytes, or adding to one what another loses, does not; the empty list and the sums 0 and 255. -/
def Obligations.ChecksumProperties : Prop :=
  (∀ (xs : List Byte) (c : Byte), (byteSum xs + c.toNat) % 256 = 255 ↔ c = checksum xs) ∧
  (∀ xs ys x y, x ≠ y → checksum (xs ++ x :: ys) ≠ checksum (xs ++ y :: ys)) ∧
  (∀ xs ys zs x y, checksum (xs ++ x :: ys ++ y :: zs) = checksum (xs ++ y :: ys ++ x :: zs)) ∧
  (∀ xs ys zs x y d, checksum (xs ++ (x + d) :: ys ++ (y - d) :: zs) = checksum (xs ++ x :: ys ++ y :: zs)) ∧
  checksum [] = 0xFF ∧ (∀ xs, byteSum xs % 256 = 0 → checksum xs = 0xFF) ∧
  (∀ xs, byteSum xs % 256 = 255 → checksum xs = 0x00)

/-- The layout of an encoded frame, for every id and code: header, id, length, code, parameters as given, checksum of
the bytes from 2 on; and the encoder is injective (R85, R87, R115, R116). -/
def Obligations.EncodedFrameLayout : Prop :=
  (∀ (id code : Byte) (params : List Byte), params.length ≤ 253 →
    let f := encodeFrame id code params
    f.length = params.length + 6 ∧ byteOf f 0 = 0xFF ∧ byteOf f 1 = 0xFF ∧ byteOf f 2 = id ∧
      (byteOf f 3).toNat = params.length + 2 ∧ (byteOf f 3).toNat + 4 = f.length ∧ byteOf f 4 = code ∧
      sliceOf f 5 (f.length - 1) = params ∧ byteOf f (f.length - 1) = checksum (sliceOf f 2 (f.length - 1))) ∧
  ∀ (id code id' code' : Byte) (params params' : List Byte),
    encodeFrame id code params = encodeFrame id' code' params' → id = id' ∧ code = code' ∧ params = params'

/-- Encoding then decoding gives back the id, the code and the parameters (R126). -/
def Obligations.FrameRoundTrip : Prop :=
  ∀ (id code : Byte) (params : List Byte), params.length ≤ 253 →
    decodeFrame (encodeFrame id code params) (encodeFrame id code params).length = .valid id code params

/-- The decoder accepts exactly the encoder's frames: the first `r` bytes decode as valid if and only if they are the
encoding of what the decoder answers, with at most 253 parameters (R86, R87, R117). -/
def Obligations.DecoderAcceptsExactlyFrames : Prop :=
  ∀ (buf : List Byte) (r : Nat) (src err : Byte) (params : List Byte), r ≤ buf.length →
    (decodeFrame buf r = .valid src err params ↔
      (buf.take r = encodeFrame src err params ∧ params.length ≤ 253))

/-- One changed byte of an encoded frame is always found: HEADER for bytes 0 and 1, LENGTH for byte 3, the checksum for
every other byte, the checksum byte among them (R126). -/
def Obligations.SingleByteErrorsDetected : Prop :=
  ∀ (id code : Byte) (params : List Byte) (k : Nat) (b : Byte), params.length ≤ 253 →
    k < (encodeFrame id code params).length → b ≠ byteOf (encodeFrame id code params) k →
    decodeFrame ((encodeFrame id code params).set k b) (encodeFrame id code params).length =
      if k < 2 then .malformed .header else if k = 3 then .malformed .length else .checksumMismatch

/-- The decoder, all of R117: the checks come in the order SHORT, HEADER, LENGTH, checksum, and the first that fails
decides; a frame that passes them all is valid, with source byte 2, error byte 4 and the parameters between byte 5 and
the checksum, `r - 6` of them, which is `buf[3] - 2` and at most 253. -/
def Obligations.DecoderCheckOrder : Prop :=
  ∀ (buf : List Byte) (r : Nat),
    (r < 6 → decodeFrame buf r = .malformed .short) ∧
    (6 ≤ r → byteOf buf 0 ≠ 0xFF ∨ byteOf buf 1 ≠ 0xFF → decodeFrame buf r = .malformed .header) ∧
    (6 ≤ r → byteOf buf 0 = 0xFF → byteOf buf 1 = 0xFF → (byteOf buf 3).toNat + 4 ≠ r →
      decodeFrame buf r = .malformed .length) ∧
    (6 ≤ r → byteOf buf 0 = 0xFF → byteOf buf 1 = 0xFF → (byteOf buf 3).toNat + 4 = r →
      byteOf buf (r - 1) ≠ checksum (sliceOf buf 2 (r - 1)) → decodeFrame buf r = .checksumMismatch) ∧
    (6 ≤ r → byteOf buf 0 = 0xFF → byteOf buf 1 = 0xFF → (byteOf buf 3).toNat + 4 = r →
      byteOf buf (r - 1) = checksum (sliceOf buf 2 (r - 1)) →
      decodeFrame buf r = .valid (byteOf buf 2) (byteOf buf 4) (sliceOf buf 5 (r - 1))) ∧
    ∀ src err params, r ≤ buf.length → decodeFrame buf r = .valid src err params →
      params.length = r - 6 ∧ params.length = (byteOf buf 3).toNat - 2 ∧ params.length ≤ 253

/-- The decoder's answer depends on the first 259 bytes only, and for `r` above 259 it is MALFORMED with HEADER or
LENGTH (R119). -/
def Obligations.DecoderReadsAtMost259Bytes : Prop :=
  ∀ (buf buf' : List Byte) (r : Nat),
    (buf.take 259 = buf'.take 259 → decodeFrame buf r = decodeFrame buf' r) ∧
    (259 < r → decodeFrame buf r = .malformed .header ∨ decodeFrame buf r = .malformed .length)

/-! ### Codes, faults, flags -/

/-- The values of the outcome codes and the detail codes (R142, R143). -/
def Obligations.OutcomeAndDetailCodes : Prop :=
  [OutCode.ok, .noReply, .malformed, .checksumMismatch, .deviceFault, .usageError, .txIncomplete,
    .illegalCmd].map outCodeByte = [0x00, 0x01, 0x02, 0x03, 0x04, 0x05, 0x06, 0x07] ∧
  [Detail.zero, .badId, .badSlot, .countRange, .regOverflow, .syncEmpty, .syncMismatch, .batchOverrun, .short,
    .header, .length, .payloadLen].map detailByte =
      [0x00, 0x01, 0x02, 0x03, 0x04, 0x05, 0x06, 0x07, 0x11, 0x12, 0x13, 0x14]

/-- `first_fault(e)` is the smallest set bit among bits 0..6, or 7 when none is set; `FAULT_FIRST` shows it and `FAULT`
still shows every bit (R121, R39). -/
def Obligations.FirstFaultIsLowestSetBit : Prop :=
  (∀ (e : Byte) (k : Nat), k ≤ 6 →
    (firstFault e = k ↔ (e.getLsbD k = true ∧ ∀ j < k, e.getLsbD j = false))) ∧
  (∀ e : Byte, firstFault e = 7 ↔ ∀ j ≤ 6, e.getLsbD j = false) ∧
  ∀ s : State, (hostRead 0x014 s).toNat = firstFault s.rxError ∧
    ∀ j ≤ 6, (hostRead 0x013 s).getLsbD j = s.rxError.getLsbD j

/-- `FAULT[6:0] = RX_ERROR[6:0]`, `FAULT[7] = 0`; it is the register view of the seven fault lines, in the order
input voltage, angle limit, overheating, range, checksum, overload, instruction; and it reads 0 after reset (R38, with
the lines of R43). -/
def Obligations.FaultShowsErrorByte : Prop :=
  (∀ s : State, (∀ j ≤ 6, (hostRead 0x013 s).getLsbD j = s.rxError.getLsbD j) ∧
    (hostRead 0x013 s).getLsbD 7 = false ∧
    (faultLine s .inputVoltage = (hostRead 0x013 s).getLsbD 0 ∧ faultLine s .angleLimit = (hostRead 0x013 s).getLsbD 1 ∧
      faultLine s .overheating = (hostRead 0x013 s).getLsbD 2 ∧ faultLine s .range = (hostRead 0x013 s).getLsbD 3 ∧
      faultLine s .checksum = (hostRead 0x013 s).getLsbD 4 ∧ faultLine s .overload = (hostRead 0x013 s).getLsbD 5 ∧
      faultLine s .instruction = (hostRead 0x013 s).getLsbD 6)) ∧
  hostRead 0x013 State.reset = 0

/-- The fault set has exactly the kinds whose error bit is set, with the bit of each kind as R88 gives it; each fault
line says whether its kind is in the set; `FAULT_ANY` says whether it is empty; bit 7 never matters
(R27, R43, R88, R120, R122). -/
def Obligations.FaultSetIsSetBits : Prop :=
  (∀ e : Byte,
    (FaultKind.inputVoltage ∈ faultSet e ↔ e.getLsbD 0 = true) ∧ (FaultKind.angleLimit ∈ faultSet e ↔ e.getLsbD 1 = true) ∧
    (FaultKind.overheating ∈ faultSet e ↔ e.getLsbD 2 = true) ∧ (FaultKind.range ∈ faultSet e ↔ e.getLsbD 3 = true) ∧
    (FaultKind.checksum ∈ faultSet e ↔ e.getLsbD 4 = true) ∧ (FaultKind.overload ∈ faultSet e ↔ e.getLsbD 5 = true) ∧
    (FaultKind.instruction ∈ faultSet e ↔ e.getLsbD 6 = true)) ∧
  (∀ (s : State) (k : FaultKind), faultLine s k = true ↔ k ∈ faultSet s.rxError) ∧
  (∀ e : Byte, anyFault e = true ↔ faultSet e ≠ []) ∧
  (∀ e : Byte, faultSet (e ^^^ 0x80) = faultSet e ∧ anyFault (e ^^^ 0x80) = anyFault e ∧
    firstFault (e ^^^ 0x80) = firstFault e) ∧
  ∀ s : State, s.faultAny = anyFault s.rxError

/-- The bits `STATUS` reads as (R27). -/
def Obligations.StatusBits : Prop :=
  ∀ s : State,
    ((hostRead 0x001 s).getLsbD 0 = true ↔ s.phase ≠ .idle) ∧ (hostRead 0x001 s).getLsbD 1 = s.done ∧
    (hostRead 0x001 s).getLsbD 2 = s.overrun ∧ (hostRead 0x001 s).getLsbD 3 = s.busSuspect ∧
    (hostRead 0x001 s).getLsbD 4 = s.rsvdErr ∧
    ((hostRead 0x001 s).getLsbD 5 = true ↔ s.rxError &&& 0x7F ≠ 0) ∧
    (hostRead 0x001 s).getLsbD 6 = false ∧ (hostRead 0x001 s).getLsbD 7 = false

/-- `irq` is `DONE` and `IRQ_EN`; acknowledging `DONE` drops it, and so does starting a command, but not masking
`DONE` itself (R150, R149). -/
def Obligations.IrqFollowsDoneAndEnable : Prop :=
  ∀ s : State,
    irq s = (s.done && s.ctrl.getLsbD 0) ∧
    (s.rst = false → irq (hostWrite 0x001 0x02 s) = false ∧ (hostWrite 0x001 0x02 s).done = false) ∧
    (s.rst = false → s.phase = .idle → ∀ d, irq (hostWrite 0x000 d s) = false) ∧
    (s.rst = false → irq (hostWrite 0x004 0x00 s) = false ∧ (hostWrite 0x004 0x00 s).done = s.done)

/-! ### The host port -/

/-- A host write of `d` to `CMD` while idle stores it, clears `DONE`, sets `BUSY`, takes the snapshot and goes to CHECK,
and changes nothing else of the block (R69, R42). That the other latches are emptied is log 9. -/
def Obligations.CommandStart : Prop :=
  ∀ (s : State) (d : Byte) (rest : List Turn), s.rst = false → s.phase = .idle →
    s.schedule = .write 0x000 d :: rest →
    ∃ t, step s = .next t ∧ Started t ∧ busyLine t = true ∧ t.lat.inp = t.inp ∧
      (∀ sl, s.slots[d.toNat / 16]? = some sl → t.lat.slotId = sl.id ∧ t.lat.slotSrl = sl.srl) ∧
      t = { s with
            schedule := rest, inp := { s.inp with cmd := d }, done := false, phase := .check, lat := t.lat,
            frame := none, acc := none, rx := none, dec := none, pend := none }

/-- While `BUSY = 1`, a host write to a location R70 lists is ignored and sets `OVERRUN`; `STATUS` and `CTRL` act
normally; every other write is ignored (R70). That a session-slot value which would be illegal while idle also sets
`OVERRUN`, and that the addresses of an absent slot are not blocked, is log 19. -/
def Obligations.BusyWritesAreBlocked : Prop :=
  ∀ (s : State) (a : Addr) (d : Byte), s.rst = false → s.phase ≠ .idle →
    (BlockedAddress s.nsess a.toNat → hostWrite a d s = { s with overrun := true }) ∧
    (a = 0x001 → hostWrite a d s =
      { s with
        done := s.done && !d.getLsbD 1, overrun := s.overrun && !d.getLsbD 2,
        rsvdErr := s.rsvdErr && !d.getLsbD 4 }) ∧
    (a = 0x004 → hostWrite a d s = { s with ctrl := d &&& 0x01 }) ∧
    (¬ BlockedAddress s.nsess a.toNat → a ≠ 0x001 → a ≠ 0x004 → hostWrite a d s = s)

/-- Host writes to read-only and to reserved addresses are ignored at all times, without `OVERRUN`, and reserved
addresses read 0 (R61, R62). -/
def Obligations.ReadOnlyAndReservedIgnoreWrites : Prop :=
  ∀ (s : State) (a : Addr) (d : Byte),
    (ReadOnlyAddress s.nsess a.toNat → hostWrite a d s = s) ∧
    (ReservedAddress s.nsess a.toNat → hostWrite a d s = s ∧ hostRead a s = 0)

/-- A host read returns the addressed byte on the port and has no other effect (R59, R71, R72); and what stands at each
readable address: the registers, the operands, the instruction codes, the fields of each session slot, and the bytes
of the five buffers (R60, R26, R28, R30, R33, R35, R37). `STATUS`, `FAULT`, `FAULT_FIRST` and the 16-bit registers have
statements of their own. -/
def Obligations.HostReadsChangeNothing : Prop :=
  (∀ (s : State) (a : Addr) (rest : List Turn), s.schedule = .read a :: rest →
    step s = .next { s with schedule := rest, reads := s.reads ++ [hostRead a s] }) ∧
  ∀ s : State,
    (hostRead 0x000 s = s.inp.cmd ∧ hostRead 0x002 s = s.outcome ∧ hostRead 0x003 s = s.detail ∧
      hostRead 0x004 s = s.ctrl ∧ hostRead 0x005 s = BitVec.ofNat 8 s.nsess) ∧
    (hostRead 0x008 s = s.inp.cmdId ∧ hostRead 0x009 s = s.inp.cmdAddr ∧ hostRead 0x00A s = s.inp.cmdCount ∧
      hostRead 0x00B s = s.inp.cmdFlags ∧ hostRead 0x00C s = s.inp.cmdInstr) ∧
    (hostRead 0x010 s = s.rxSrcId ∧ hostRead 0x011 s = s.rxError ∧ hostRead 0x012 s = s.rxPlen) ∧
    (hostRead 0x020 s = s.inp.instrPing ∧ hostRead 0x021 s = s.inp.instrRead ∧ hostRead 0x022 s = s.inp.instrWrite ∧
      hostRead 0x023 s = s.inp.instrRegWrite ∧ hostRead 0x024 s = s.inp.instrAction ∧
      hostRead 0x025 s = s.inp.instrSyncWrite) ∧
    (∀ (k : Nat) (sl : Slot), k < 16 → s.slots[k]? = some sl →
      hostRead (BitVec.ofNat 11 (0x040 + 4 * k)) s = sl.id ∧ hostRead (BitVec.ofNat 11 (0x041 + 4 * k)) s = sl.srl ∧
      hostRead (BitVec.ofNat 11 (0x042 + 4 * k)) s = sl.rdelay ∧
      hostRead (BitVec.ofNat 11 (0x043 + 4 * k)) s = sl.lastError) ∧
    ∀ a : Addr, 0x100 ≤ a.toNat → hostRead a s = s.byteAt a.toNat

/-- A host write while idle to a read-write register reads back what was stored, reserved bits as 0, and changes what
no other address reads as (R22, R33, R34, R36, R60). A host write to `STATUS` while idle clears `DONE`, `OVERRUN` and
`RSVD_ERR` where it writes 1 to bit 1, 2 or 4, and changes nothing else (R27). -/
def Obligations.RegisterWriteReadsBack : Prop :=
  ∀ (s : State) (a : Addr) (d : Byte), s.rst = false → s.phase = .idle →
    (a ∈ [0x008, 0x009, 0x00A, 0x00C, 0x00E, 0x00F, 0x016, 0x017, 0x020, 0x021, 0x022, 0x023, 0x024, 0x025] →
      hostRead a (hostWrite a d s) = d ∧ ∀ b, b ≠ a → hostRead b (hostWrite a d s) = hostRead b s) ∧
    (hostRead 0x00B (hostWrite 0x00B d s) = d &&& 0x03 ∧
      ∀ b, b ≠ 0x00B → hostRead b (hostWrite 0x00B d s) = hostRead b s) ∧
    (hostRead 0x004 (hostWrite 0x004 d s) = d &&& 0x01 ∧
      ∀ b, b ≠ 0x004 → hostRead b (hostWrite 0x004 d s) = hostRead b s) ∧
    hostWrite 0x001 d s =
      { s with
        done := if d.getLsbD 1 then false else s.done, overrun := if d.getLsbD 2 then false else s.overrun,
        rsvdErr := if d.getLsbD 4 then false else s.rsvdErr }

/-- A host write to a session-slot field while idle: a legal value is stored in that field of that slot and nothing else
changes; an illegal one is ignored and nothing records it (R30, R31). -/
def Obligations.SlotFieldWrites : Prop :=
  ∀ (s : State) (k : Nat) (sl : Slot) (d : Byte), s.rst = false → s.phase = .idle → k < 16 → s.slots[k]? = some sl →
    hostWrite (BitVec.ofNat 11 (0x040 + 4 * k)) d s =
      (if d.toNat ≤ 253 then { s with slots := s.slots.set k { sl with id := d } } else s) ∧
    hostWrite (BitVec.ofNat 11 (0x041 + 4 * k)) d s =
      (if d.toNat ≤ 2 then { s with slots := s.slots.set k { sl with srl := d } } else s) ∧
    hostWrite (BitVec.ofNat 11 (0x042 + 4 * k)) d s =
      (if d.toNat ≤ 254 then { s with slots := s.slots.set k { sl with rdelay := d } } else s)

/-- A host write while idle to a byte of `TXDATA`, `RXFRAME` or `BATCH` is what that byte then reads as; every other
address reads as before, and only the memory changes (R41, R82). -/
def Obligations.BufferWriteThenRead : Prop :=
  ∀ (s : State) (a : Addr) (d : Byte), s.rst = false → s.phase = .idle →
    ((0x100 ≤ a.toNat ∧ a.toNat < 0x200) ∨ (0x400 ≤ a.toNat ∧ a.toNat < 0x600) ∨ 0x700 ≤ a.toNat) →
    hostRead a (hostWrite a d s) = d ∧ (∀ b, b ≠ a → hostRead b (hostWrite a d s) = hostRead b s) ∧
      hostWrite a d s = { s with ram := (hostWrite a d s).ram }

/-- The 16-bit registers are little-endian, byte by byte: writing both bytes of `REG_LIMIT` or `RX_RAWLEN` stores the
value, the low byte alone leaves the high one, and two reads give the value (R64, R171). -/
def Obligations.HalfRegistersLittleEndian : Prop :=
  ∀ (s : State) (v : Half), s.rst = false → s.phase = .idle →
    hostWrite16 0x00E v s = { s with inp := { s.inp with regLimit := v } } ∧
    hostWrite16 0x016 v s = { s with rxRawLen := v } ∧
    (hostWrite 0x00E (lowByte v) s).inp.regLimit.toNat = (s.inp.regLimit.toNat / 256) * 256 + v.toNat % 256 ∧
    hostRead16 0x00E s = s.inp.regLimit ∧ hostRead16 0x016 s = s.rxRawLen ∧ hostRead16 0x018 s = s.txLen

/-- Every step of a running command but COMMIT leaves what every host address reads as, the interrupt and the fault
lines as they were (R71, R75). -/
def Obligations.HostViewChangesOnlyAtCommit : Prop :=
  ∀ (i : Instr) (s t : State), s.phase ≠ .idle → s.phase ≠ .commit → exec i s = .next t →
    (∀ a, hostRead a t = hostRead a s) ∧ irq t = irq s ∧ ∀ k, faultLine t k = faultLine s k

/-- No host write made while a command runs changes what the command does: its next step after the write differs from
its next step without it at most in the flags and control bits the host itself may write (R70, R81). -/
def Obligations.HostCannotDisturbRunningCommand : Prop :=
  ∀ (i : Instr) (s t : State) (a : Addr) (d : Byte), s.phase ≠ .idle → exec i s = .next t →
    ∃ t', exec i (hostWrite a d s) = .next t' ∧
      t' = { t with done := t'.done, overrun := t'.overrun, rsvdErr := t'.rsvdErr, ctrl := t'.ctrl }

/-! ### The commands -/

/-- NOP, from its start: two block steps, outcome OK, detail 0, `DONE`, and nothing else, whatever `SLOT` is; no
Transport call (R111). -/
def Obligations.NopCompletes : Prop :=
  ∀ (k : Nat) (s : State), Started s → ExecChain (.nop k) 2 s (endedOnly s .ok .zero)

/-- Each reserved opcode, from its start: two block steps, outcome ILLEGAL_CMD (0x07), detail 0, `DONE`, and nothing
else; no Transport call, no buffer (R112). -/
def Obligations.ReservedEndIllegal : Prop :=
  ∀ (i : Instr) (k : Nat) (s : State), i ∈ [.reservedB k, .reservedC k, .reservedD k, .reservedE k, .reservedF k] →
    Started s → ExecChain i 2 s (endedOnly s .illegalCmd .zero) ∧ (endedOnly s .illegalCmd .zero).outcome = 0x07

/-- ENCODE: `CMD_ID` at most 254 and at most 253 parameters; the frame of `TXDATA[0..n)` goes to `TXFRAME` and its
length to `TX_LEN`; no Transport call; every other byte and register is unchanged (R96, R123). -/
def Obligations.EncodeCompletes : Prop :=
  ∀ (k n : Nat) (s : State) (f : List Byte), Started s → s.lat.inp.cmdId.toNat ≤ 254 → n = s.lat.inp.cmdCount.toNat →
    n ≤ 253 → f = encodeFrame s.lat.inp.cmdId s.lat.inp.cmdInstr (txdataBytes s n) →
    ∃ m, MemoryReads m s.epoch (overlay 0x200 f s.byteAt) ∧ ExecChain (.encode k) 3 s (builtOnly s f m)

/-- SEND_RAW: as ENCODE, and the frame is sent; when the Transport takes it whole the outcome is OK, and no reply is
read (R96, R124). -/
def Obligations.SendRawCompletes : Prop :=
  ∀ (k n : Nat) (s : State) (f : List Byte) (rest : List (Option Nat)), Started s →
    s.lat.inp.cmdId.toNat ≤ 254 → n = s.lat.inp.cmdCount.toNat → n ≤ 253 →
    f = encodeFrame s.lat.inp.cmdId s.lat.inp.cmdInstr (txdataBytes s n) → s.txAnswers = some f.length :: rest →
    ∃ m, MemoryReads m s.epoch (overlay 0x200 f s.byteAt) ∧ ExecChain (.sendRaw k) 4 s (sentOnly s f rest m)

/-- DECODE of `RXFRAME[0..RX_RAWLEN)`: MALFORMED, CHECKSUM_MISMATCH, or the fields of the frame with OK or
DEVICE_FAULT; no Transport call, no slot, no `BUS_SUSPECT`, and of the buffers only `RXDATA` (R125). Its path is
CHECK, BUILD, COMMIT (R25; that BUILD does the DECODE phase's work is log 13). -/
def Obligations.DecodeCompletes : Prop :=
  ∀ (k : Nat) (s : State) (buf : List Byte), Started s →
    buf = (List.range (min s.rxRawLen.toNat 512)).map (fun j => s.byteAt (0x400 + j)) →
    match decodeFrame buf s.rxRawLen.toNat with
    | .malformed d =>
      ExecChain (.decode k) 3 s { endedOnly s .malformed d with dec := some (.malformed d) }
    | .checksumMismatch =>
      ExecChain (.decode k) 3 s { endedOnly s .checksumMismatch .zero with dec := some .checksumMismatch }
    | .valid src err params =>
      ∃ m, MemoryReads m s.epoch (overlay 0x600 params s.byteAt) ∧
        ExecChain (.decode k) 3 s
          { endedOnly s (replyCode err) .zero with
            dec := some (.valid src err params), rxSrcId := src, rxError := err,
            rxPlen := BitVec.ofNat 8 params.length, rsvdErr := s.rsvdErr || err.getLsbD 7, ram := m }

/-- PING of an id in 0..253 that is answered by a valid status: the frame `FF FF id 02 code ck`, a 6-byte reply, OK or
DEVICE_FAULT, `BUS_SUSPECT` cleared, no slot changed (R92, R129). -/
def Obligations.PingCompletes : Prop :=
  ∀ (k : Nat) (s : State) (x : Exchange), Started s → s.lat.inp.cmdId.toNat ≤ 253 →
    x.frame = [0xFF, 0xFF, s.lat.inp.cmdId, 0x02, s.lat.inp.instrPing,
      checksum [s.lat.inp.cmdId, 0x02, s.lat.inp.instrPing]] →
    x.expected = 6 → x.happens s →
    ∃ m, MemoryReads m s.epoch (exchangeBytes s x) ∧
      ExecChain (.ping k) 6 s (repliedTo s x (replyCode x.err) .zero false s.slots m)

/-- READ_BYTES (`c = CMD_COUNT`) and READ_WORDS (`c = 2 * CMD_COUNT`) on an existing slot, answered by a valid status:
the frame with parameters `[addr, c]`, a reply of at most `6 + c` bytes read at every return level, the payload in
`RXDATA`, `LAST_ERROR` of that slot, DEVICE_FAULT before PAYLOAD_LEN before OK (R90, R130, R131). -/
def Obligations.ReadsComplete : Prop :=
  ∀ (i : Instr) (k c : Nat) (s : State) (x : Exchange),
    (i = .readBytes k ∧ c = s.lat.inp.cmdCount.toNat) ∨ (i = .readWords k ∧ c = 2 * s.lat.inp.cmdCount.toNat) →
    Started s → k < s.nsess → c ≤ 253 →
    x.frame = encodeFrame s.lat.slotId s.lat.inp.instrRead [s.lat.inp.cmdAddr, BitVec.ofNat 8 c] →
    x.expected = 6 + c → x.happens s →
    ∃ m, MemoryReads m s.epoch (exchangeBytes s x) ∧
      if x.err &&& 0x7F = 0 ∧ x.params.length ≠ c then
        ExecChain i 6 s (repliedTo s x .malformed .payloadLen true (withLastError s.slots k x.err) m)
      else
        ExecChain i 6 s (repliedTo s x (replyCode x.err) .zero s.busSuspect (withLastError s.slots k x.err) m)

/-- WRITE_BYTES (`c = CMD_COUNT`) and WRITE_WORDS (`c = 2 * CMD_COUNT`) at return level 2, answered by a valid status:
the frame carries the immediate or the buffered code, the address and `TXDATA[0..c)` (R91, R132, R133, R135). -/
def Obligations.WritesWithStatusComplete : Prop :=
  ∀ (i : Instr) (k c : Nat) (s : State) (x : Exchange),
    (i = .writeBytes k ∧ c = s.lat.inp.cmdCount.toNat) ∨ (i = .writeWords k ∧ c = 2 * s.lat.inp.cmdCount.toNat) →
    Started s → k < s.nsess → c ≤ 252 → s.lat.inp.cmdAddr.toNat + c ≤ s.lat.inp.regLimit.toNat →
    s.lat.slotSrl = 2 →
    x.frame = encodeFrame s.lat.slotId
      (if s.lat.inp.cmdFlags.getLsbD 0 then s.lat.inp.instrWrite else s.lat.inp.instrRegWrite)
      (s.lat.inp.cmdAddr :: txdataBytes s c) →
    x.expected = 6 → x.happens s →
    ∃ m, MemoryReads m s.epoch (exchangeBytes s x) ∧
      ExecChain i 6 s (repliedTo s x (replyCode x.err) .zero s.busSuspect (withLastError s.slots k x.err) m)

/-- WRITE_BYTES and WRITE_WORDS at a return level other than 2: OK as soon as the Transport takes the frame; nothing is
read and no `RX_*` field, slot or receive buffer changes (R127, R132, R133, R169). -/
def Obligations.WritesWithoutStatusComplete : Prop :=
  ∀ (i : Instr) (k c : Nat) (s : State) (f : List Byte) (rest : List (Option Nat)),
    (i = .writeBytes k ∧ c = s.lat.inp.cmdCount.toNat) ∨ (i = .writeWords k ∧ c = 2 * s.lat.inp.cmdCount.toNat) →
    Started s → k < s.nsess → c ≤ 252 → s.lat.inp.cmdAddr.toNat + c ≤ s.lat.inp.regLimit.toNat →
    s.lat.slotSrl ≠ 2 →
    f = encodeFrame s.lat.slotId
      (if s.lat.inp.cmdFlags.getLsbD 0 then s.lat.inp.instrWrite else s.lat.inp.instrRegWrite)
      (s.lat.inp.cmdAddr :: txdataBytes s c) →
    s.txAnswers = some f.length :: rest →
    ∃ m, MemoryReads m s.epoch (overlay 0x200 f s.byteAt) ∧ ExecChain i 4 s (sentOnly s f rest m)

/-- ACTION without a reply: broadcast, to id 254 whatever `SLOT` is, or unicast to an existing slot at a return level
other than 2 (R92, R127, R134). -/
def Obligations.ActionWithoutStatusCompletes : Prop :=
  ∀ (k : Nat) (s : State) (id : Byte) (f : List Byte) (rest : List (Option Nat)), Started s →
    (s.lat.inp.cmdFlags.getLsbD 1 = true ∧ id = 254) ∨
      (s.lat.inp.cmdFlags.getLsbD 1 = false ∧ k < s.nsess ∧ s.lat.slotSrl ≠ 2 ∧ id = s.lat.slotId) →
    f = [0xFF, 0xFF, id, 0x02, s.lat.inp.instrAction, checksum [id, 0x02, s.lat.inp.instrAction]] →
    s.txAnswers = some 6 :: rest →
    ∃ m, MemoryReads m s.epoch (overlay 0x200 f s.byteAt) ∧ ExecChain (.action k) 4 s (sentOnly s f rest m)

/-- Unicast ACTION at return level 2, answered by a valid status (R127, R134). -/
def Obligations.ActionWithStatusCompletes : Prop :=
  ∀ (k : Nat) (s : State) (x : Exchange), Started s → s.lat.inp.cmdFlags.getLsbD 1 = false → k < s.nsess →
    s.lat.slotSrl = 2 →
    x.frame = [0xFF, 0xFF, s.lat.slotId, 0x02, s.lat.inp.instrAction,
      checksum [s.lat.slotId, 0x02, s.lat.inp.instrAction]] →
    x.expected = 6 → x.happens s →
    ∃ m, MemoryReads m s.epoch (exchangeBytes s x) ∧
      ExecChain (.action k) 6 s
        (repliedTo s x (replyCode x.err) .zero s.busSuspect (withLastError s.slots k x.err) m)

/-- SYNC_WRITE of a legal batch of `N` records with `V` values each: one broadcast frame with parameters
`[addr, 2V]` and the records, of `(2V+1)*N + 8` bytes; OK when the Transport takes it; no reply, no slot
(R93, R94, R138). -/
def Obligations.SyncWriteCompletes : Prop :=
  ∀ (k n v : Nat) (s : State) (f : List Byte) (rest : List (Option Nat)), Started s →
    n = s.lat.inp.cmdCount.toNat → 1 ≤ n → BatchHolds s n v → 2 + n * (1 + 2 * v) ≤ 253 →
    s.lat.inp.cmdAddr.toNat + 2 * v ≤ s.lat.inp.regLimit.toNat →
    f = encodeFrame 254 s.lat.inp.instrSyncWrite (syncPacketParams s n v) → s.txAnswers = some f.length :: rest →
    f.length = (2 * v + 1) * n + 8 ∧
    ∃ m, MemoryReads m s.epoch (overlay 0x200 f s.byteAt) ∧ ExecChain (.syncWrite k) 4 s (sentOnly s f rest m)

/-! ### Commands that are turned away or fail -/

/-- The CHECK tests of every command but SYNC_WRITE, in order: a command whose first failing test is the named one
ends USAGE_ERROR with that detail and changes nothing else; no frame is built and the Transport is not called
(R105, R145, R148). -/
def Obligations.RejectedCommandsOnlyReport : Prop :=
  ∀ (i : Instr) (k c : Nat) (s : State), Started s →
    (i = .ping k → 253 < s.lat.inp.cmdId.toNat → ExecChain i 2 s (endedOnly s .usageError .badId)) ∧
    (i = .encode k ∨ i = .sendRaw k →
      (254 < s.lat.inp.cmdId.toNat → ExecChain i 2 s (endedOnly s .usageError .badId)) ∧
      (s.lat.inp.cmdId.toNat ≤ 254 → 253 < s.lat.inp.cmdCount.toNat →
        ExecChain i 2 s (endedOnly s .usageError .countRange))) ∧
    ((i = .readBytes k ∧ c = s.lat.inp.cmdCount.toNat) ∨ (i = .readWords k ∧ c = 2 * s.lat.inp.cmdCount.toNat) →
      (s.nsess ≤ k → ExecChain i 2 s (endedOnly s .usageError .badSlot)) ∧
      (k < s.nsess → 253 < c → ExecChain i 2 s (endedOnly s .usageError .countRange))) ∧
    ((i = .writeBytes k ∧ c = s.lat.inp.cmdCount.toNat) ∨ (i = .writeWords k ∧ c = 2 * s.lat.inp.cmdCount.toNat) →
      (s.nsess ≤ k → ExecChain i 2 s (endedOnly s .usageError .badSlot)) ∧
      (k < s.nsess → 252 < c → ExecChain i 2 s (endedOnly s .usageError .countRange)) ∧
      (k < s.nsess → c ≤ 252 → s.lat.inp.regLimit.toNat < s.lat.inp.cmdAddr.toNat + c →
        ExecChain i 2 s (endedOnly s .usageError .regOverflow))) ∧
    (i = .action k → s.lat.inp.cmdFlags.getLsbD 1 = false → s.nsess ≤ k →
      ExecChain i 2 s (endedOnly s .usageError .badSlot))

/-- A sync-write batch that is turned away: `n` legal records of `v` values and then the record that fails, or the
whole batch too long or past the register limit; it ends USAGE_ERROR with the detail of the first failing test, and
changes nothing else, so nothing is sent (R137, R140, R146). -/
def Obligations.SyncWriteRejections : Prop :=
  ∀ (k n v : Nat) (s : State), Started s →
    (s.lat.inp.cmdCount = 0 → ExecChain (.syncWrite k) 2 s (endedOnly s .usageError .syncEmpty)) ∧
    (BatchHolds s n v → n < s.lat.inp.cmdCount.toNat → 256 < n * (2 + 2 * v) + 2 →
      ExecChain (.syncWrite k) 2 s (endedOnly s .usageError .batchOverrun)) ∧
    (BatchHolds s n v → n < s.lat.inp.cmdCount.toNat → n * (2 + 2 * v) + 2 ≤ 256 →
      256 < n * (2 + 2 * v) + 2 + 2 * (s.byteAt (0x700 + n * (2 + 2 * v) + 1)).toNat →
      ExecChain (.syncWrite k) 2 s (endedOnly s .usageError .batchOverrun)) ∧
    (BatchHolds s n v → n < s.lat.inp.cmdCount.toNat →
      n * (2 + 2 * v) + 2 + 2 * (s.byteAt (0x700 + n * (2 + 2 * v) + 1)).toNat ≤ 256 →
      253 < (s.byteAt (0x700 + n * (2 + 2 * v))).toNat →
      ExecChain (.syncWrite k) 2 s (endedOnly s .usageError .badId)) ∧
    (BatchHolds s n v → 1 ≤ n → n < s.lat.inp.cmdCount.toNat →
      n * (2 + 2 * v) + 2 + 2 * (s.byteAt (0x700 + n * (2 + 2 * v) + 1)).toNat ≤ 256 →
      (s.byteAt (0x700 + n * (2 + 2 * v))).toNat ≤ 253 →
      (s.byteAt (0x700 + n * (2 + 2 * v) + 1)).toNat ≠ v →
      ExecChain (.syncWrite k) 2 s (endedOnly s .usageError .syncMismatch)) ∧
    (BatchHolds s n v → 1 ≤ n → n = s.lat.inp.cmdCount.toNat → 253 < 2 + n * (1 + 2 * v) →
      ExecChain (.syncWrite k) 2 s (endedOnly s .usageError .countRange)) ∧
    (BatchHolds s n v → 1 ≤ n → n = s.lat.inp.cmdCount.toNat → 2 + n * (1 + 2 * v) ≤ 253 →
      s.lat.inp.regLimit.toNat < s.lat.inp.cmdAddr.toNat + 2 * v →
      ExecChain (.syncWrite k) 2 s (endedOnly s .usageError .regOverflow))

/-- TX calls `TxWrite(frame)` once. Fewer bytes accepted than the frame has is TX_INCOMPLETE with no RX, whatever the
command; a frame taken whole ends a command that expects no reply with OK, and takes any other to RX (R107, R127). -/
def Obligations.TxPhaseRule : Prop :=
  ∀ (i : Instr) (s : State) (f : List Byte) (a : Nat) (rest : List (Option Nat)), isBusCommand i = true →
    s.phase = .tx → s.frame = some f → s.txAnswers = some a :: rest → a ≤ f.length →
    exec i s = .next
      (if a < f.length then
        { s with
          acc := some a, txAnswers := rest, busLog := s.busLog ++ [.txWrite f a],
          pend := some (.txIncomplete, .zero), phase := .commit }
      else if (expectedReply i s).isSome then
        { s with acc := some a, txAnswers := rest, busLog := s.busLog ++ [.txWrite f a], phase := .rx }
      else
        { s with
          acc := some a, txAnswers := rest, busLog := s.busLog ++ [.txWrite f a],
          pend := some (.ok, .zero), phase := .commit })

/-- RX of a command that expects `E` bytes: one `RxRead(E)`; no bytes is NO_REPLY, any other reply within the bound
goes to DECODE (R100, R108). -/
def Obligations.ReplyOrNoReply : Prop :=
  ∀ (i : Instr) (s : State) (e : Nat) (bytes : List Byte) (rest : List (Option (List Byte))),
    s.phase = .rx → expectedReply i s = some e → s.rxAnswers = some bytes :: rest → bytes.length ≤ e →
    exec i s = .next
      (if bytes = [] then
        { s with
          rx := some [], rxAnswers := rest, busLog := s.busLog ++ [.rxRead e []], pend := some (.noReply, .zero),
          phase := .commit }
      else
        { s with
          rx := some bytes, rxAnswers := rest, busLog := s.busLog ++ [.rxRead e bytes], phase := .decode })

/-- DECODE of a bus command's reply that is no valid frame: MALFORMED with the decoder's detail, or
CHECKSUM_MISMATCH; the command goes to COMMIT (R109, R146). -/
def Obligations.BadReplyEndsCommand : Prop :=
  ∀ (i : Instr) (s : State) (bytes : List Byte), isBusCommand i = true → s.phase = .decode → s.rx = some bytes →
    (∀ d, decodeFrame bytes bytes.length = .malformed d →
      exec i s = .next { s with dec := some (.malformed d), pend := some (.malformed, d), phase := .commit }) ∧
    (decodeFrame bytes bytes.length = .checksumMismatch →
      exec i s = .next
        { s with dec := some .checksumMismatch, pend := some (.checksumMismatch, .zero), phase := .commit })

/-- COMMIT of every command writes every result at once: the outcome, the frame when one was built, the received bytes
when RX ran, the decoded fields and payload on a valid decode, `LAST_ERROR` of a slot command's slot, `BUS_SUSPECT`,
`DONE`; all else is unchanged (R110). -/
def Obligations.CommitWritesEveryResult : Prop :=
  ∀ (i : Instr) (s : State) (code : OutCode) (d : Detail) (params : List Byte),
    s.phase = .commit → s.pend = some (code, d) →
    (s.frame.getD []).length ≤ 512 → (s.rx.getD []).length ≤ 512 → params.length ≤ 256 →
    (params = [] ∧ ∀ src err p, s.dec ≠ some (.valid src err p)) ∨
      (∃ src err, s.dec = some (.valid src err params)) →
    ∃ t, exec i s = .next t ∧ t.phase = .idle ∧ t.done = true ∧ t.outcome = outCodeByte code ∧
      t.detail = detailByte d ∧
      (∀ f, s.frame = some f → t.txLen = BitVec.ofNat 16 f.length) ∧ (s.frame = none → t.txLen = s.txLen) ∧
      (∀ b, s.rx = some b → t.rxRawLen = BitVec.ofNat 16 b.length) ∧ (s.rx = none → t.rxRawLen = s.rxRawLen) ∧
      (∀ src err, s.dec = some (.valid src err params) →
        t.rxSrcId = src ∧ t.rxError = err ∧ t.rxPlen = BitVec.ofNat 8 params.length ∧
          t.rsvdErr = (s.rsvdErr || err.getLsbD 7)) ∧
      ((∀ src err p, s.dec ≠ some (.valid src err p)) →
        t.rxSrcId = s.rxSrcId ∧ t.rxError = s.rxError ∧ t.rxPlen = s.rxPlen ∧ t.rsvdErr = s.rsvdErr) ∧
      (∀ k src err, slotOf i s = some k → s.dec = some (.valid src err params) →
        t.slots = withLastError s.slots k err) ∧
      ((slotOf i s = none ∨ ∀ src err p, s.dec ≠ some (.valid src err p)) → t.slots = s.slots) ∧
      (s.acc.isSome = true ∧ code ∈ [OutCode.malformed, .checksumMismatch] → t.busSuspect = true) ∧
      ((∃ k, i = .ping k) ∧ code ∈ [OutCode.ok, .deviceFault] → t.busSuspect = false) ∧
      (¬ (s.acc.isSome = true ∧ code ∈ [OutCode.malformed, .checksumMismatch]) →
        ¬ ((∃ k, i = .ping k) ∧ code ∈ [OutCode.ok, .deviceFault]) → t.busSuspect = s.busSuspect) ∧
      (∀ a, t.byteAt a =
        overlay 0x200 (s.frame.getD []) (overlay 0x400 (s.rx.getD []) (overlay 0x600 params s.byteAt)) a) ∧
      t = { s with
            phase := t.phase, done := t.done, outcome := t.outcome, detail := t.detail, txLen := t.txLen
            rxRawLen := t.rxRawLen, rxSrcId := t.rxSrcId, rxError := t.rxError, rxPlen := t.rxPlen
            rsvdErr := t.rsvdErr, busSuspect := t.busSuspect, slots := t.slots, ram := t.ram }

/-! ### Rules of the whole machine -/

/-- A command changes the session table only at COMMIT of a slot command with a valid decode, and then only
`LAST_ERROR` of its own slot (R32, R84, R128). -/
def Obligations.LastErrorOfOwnSlotOnly : Prop :=
  ∀ (i : Instr) (s t : State), exec i s = .next t →
    t.slots = s.slots ∨
    ∃ k src err params, slotOf i s = some k ∧ s.phase = .commit ∧ s.dec = some (.valid src err params) ∧
      t.slots = withLastError s.slots k err

/-- A step changes `BUS_SUSPECT` only so: COMMIT of a command that ran TX and ends MALFORMED or CHECKSUM_MISMATCH sets
it; COMMIT of a PING that ends OK or DEVICE_FAULT clears it; reset clears it. And those two COMMITs always do (R151). -/
def Obligations.BusSuspectRule : Prop :=
  (∀ s t : State, LatchesFit s → step s = .next t → t.busSuspect ≠ s.busSuspect →
    (s.phase = .commit ∧ t.busSuspect = true ∧ s.acc.isSome = true ∧
      ∃ c d, s.pend = some (c, d) ∧ c ∈ [OutCode.malformed, .checksumMismatch]) ∨
    (s.phase = .commit ∧ t.busSuspect = false ∧ (∃ k, decodeCmd s.lat.inp.cmd = .ping k) ∧
      ∃ c d, s.pend = some (c, d) ∧ c ∈ [OutCode.ok, .deviceFault]) ∨
    (t.busSuspect = false ∧ s.schedule.head? = some (.rst true))) ∧
  ∀ (i : Instr) (s t : State) (c : OutCode) (d : Detail), s.phase = .commit → s.pend = some (c, d) →
    exec i s = .next t →
    (s.acc.isSome = true → c ∈ [OutCode.malformed, .checksumMismatch] → t.busSuspect = true) ∧
    ((∃ k, i = .ping k) → c ∈ [OutCode.ok, .deviceFault] → t.busSuspect = false)

/-- The memory keeps its canonical form in every step (R41; the form is log 7). -/
def Obligations.MemoryStaysCanonical : Prop :=
  ∀ s t : State, Memory.wf s.ram = true → step s = .next t → Memory.wf t.ram = true

/-- In every step `NSESS` never changes, the session fields keep their ranges, and the reserved bits of `CTRL` and
`CMD_FLAGS` stay 0 (R7, R22, R31, R34, R62). -/
def Obligations.RegisterRangesStay : Prop :=
  (∀ s t : State, SlotsLegal s → step s = .next t → SlotsLegal t ∧ t.nsess = s.nsess) ∧
  ∀ s t : State, ReservedBitsZero s → step s = .next t → ReservedBitsZero t

/-- While a command runs the live registers and the snapshot agree, in every step (R42, R164). -/
def Obligations.LatchStaysCurrent : Prop :=
  ∀ s t : State, LatchCurrent s → step s = .next t → LatchCurrent t

/-- While `rst` is asserted the block stays in the reset state, whatever the turns; when it is released the block is in
the reset state, in IDLE (R159). That the hidden latches are zero or empty there is log 8; that the Transport, the
schedule and the logs are kept is log 14, and that a hanging answer is kept with the rest is log 25. -/
def Obligations.HeldResetStays : Prop :=
  (∀ s t : State, HeldAtReset s → step s = .next t → HeldAtReset t) ∧
  ∀ (s : State) (rest : List Turn), HeldAtReset s → s.rst = true → s.schedule = .rst false :: rest →
    ∃ t, step s = .next t ∧ t.rst = false ∧ t.phase = .idle ∧
      t = { State.resetOf s.nsess with
            schedule := rest, reads := s.reads, busLog := s.busLog, txAnswers := s.txAnswers, rxAnswers := s.rxAnswers,
            draws := s.draws, epoch := s.epoch }

/-- Every step keeps the latches filled as the phase says, so that phase 7 is never reached and no command reaches
COMMIT without an outcome; and such a state answers a next state (R24, R42, R141). -/
def Obligations.LatchesStayFit : Prop :=
  ∀ s : State, LatchesFit s → ∃ t, step s = .next t ∧ LatchesFit t

/-- The history of Transport calls stays a sequence of `[TxWrite]` and `[TxWrite, RxRead]`, and every answer keeps its
bound (R78, R79). -/
def Obligations.BusCallsStayInOrder : Prop :=
  ∀ s t : State, CallsInOrder s → (∀ c ∈ s.busLog, CallBounded c) → step s = .next t →
    CallsInOrder t ∧ ∀ c ∈ t.busLog, CallBounded c

/-- Every frame the block builds or sends is a packet with an id in 0..254, never 255, and at most 253 parameters, in
every step from a state where that holds (R87, R89, R106). -/
def Obligations.FramesStayLegal : Prop :=
  ∀ s t : State, FramesLegal s → step s = .next t → FramesLegal t

/-! ### Reset -/

/-- The reset state meets every invariant (R46). -/
def Obligations.ResetMeetsInvariants : Prop :=
  Memory.wf State.reset.ram = true ∧ SlotsLegal State.reset ∧ ReservedBitsZero State.reset ∧
    LatchCurrent State.reset ∧ HeldAtReset State.reset ∧ LatchesFit State.reset ∧ CallsInOrder State.reset ∧
    (∀ c ∈ State.reset.busLog, CallBounded c) ∧ FramesLegal State.reset

/-- What the host reads after reset at every register and every field of every session slot, as the table of R46 gives
it, for an instance with four slots; the buffers are left open. -/
def Obligations.ResetReads : Prop :=
  [0x000, 0x001, 0x002, 0x003, 0x004, 0x005, 0x008, 0x009, 0x00A, 0x00B, 0x00C, 0x00E, 0x00F].map
      (fun a => hostRead a State.reset) = [0, 0, 0, 0, 0, 4, 0, 0, 0, 0, 0, 0x00, 0x01] ∧
  [0x010, 0x011, 0x012, 0x013, 0x014, 0x016, 0x017, 0x018, 0x019].map (fun a => hostRead a State.reset) =
      [0, 0, 0, 0, 7, 0, 0, 0, 0] ∧
  [0x020, 0x021, 0x022, 0x023, 0x024, 0x025].map (fun a => hostRead a State.reset) =
      [0x01, 0x02, 0x03, 0x04, 0x05, 0x83] ∧
  [0x040, 0x041, 0x042, 0x043, 0x044, 0x045, 0x046, 0x047].map (fun a => hostRead a State.reset) =
      [1, 2, 250, 0, 1, 2, 250, 0] ∧
  [0x048, 0x049, 0x04A, 0x04B, 0x04C, 0x04D, 0x04E, 0x04F].map (fun a => hostRead a State.reset) =
      [1, 2, 250, 0, 1, 2, 250, 0] ∧
  State.reset.phase = .idle ∧ busyLine State.reset = false ∧ irq State.reset = false ∧
  ∀ k, faultLine State.reset k = false

/-- Asserting reset in any phase abandons the command without COMMIT: the block is in the reset state, no Transport
call is made, and nothing of the Transport is lost (R159, R160, R161). That the hidden latches are then zero or empty
is log 8; what is kept is log 14, and that a hanging answer is kept with the rest is log 25. -/
def Obligations.ResetAbandonsCommand : Prop :=
  ∀ (s : State) (rest : List Turn), s.rst = false → s.schedule = .rst true :: rest →
    ∃ t, step s = .next t ∧ t.rst = true ∧ HeldAtReset t ∧ t.phase = .idle ∧ t.done = false ∧ t.nsess = s.nsess ∧
      t.schedule = rest ∧ t.busLog = s.busLog ∧ t.txAnswers = s.txAnswers ∧ t.rxAnswers = s.rxAnswers ∧
      ∀ a d, hostWrite a d t = t
end

