-- ==== Sys2Proof/Laws/Codec.lean ====
section
/-! SUPPORT. Small laws of the codec's parts and of the byte halves. -/

namespace Sys2Proof.Machine

@[simp] theorem byteSum_nil : byteSum [] = 0 := rfl

@[simp] theorem byteSum_cons (x : Byte) (xs : List Byte) : byteSum (x :: xs) = x.toNat + byteSum xs := rfl

theorem byteSum_append (xs ys : List Byte) : byteSum (xs ++ ys) = byteSum xs + byteSum ys := by
  induction xs with
  | nil => simp
  | cons x xs ih => simp [ih, Nat.add_assoc]

/-- The checksum as a number (R113). -/
theorem checksum_toNat (xs : List Byte) : (checksum xs).toNat = 255 - byteSum xs % 256 := by
  rw [checksum, BitVec.toNat_ofNat]
  omega

/-- Two lists have the same checksum exactly when their sums agree mod 256. -/
theorem checksum_eq_iff (xs ys : List Byte) : checksum xs = checksum ys ↔ byteSum xs % 256 = byteSum ys % 256 := by
  rw [← BitVec.toNat_inj, checksum_toNat, checksum_toNat]
  omega

/-- A body is the three leading bytes and the parameters. -/
@[simp] theorem length_frameBody (id code : Byte) (params : List Byte) :
    (frameBody id code params).length = params.length + 3 := rfl

theorem joinBytes_toNat (lo hi : Byte) : (joinBytes lo hi).toNat = hi.toNat * 256 + lo.toNat := by
  have h1 := lo.isLt
  have h2 := hi.isLt
  rw [joinBytes, BitVec.toNat_ofNat]
  omega

@[simp] theorem lowByte_joinBytes (lo hi : Byte) : lowByte (joinBytes lo hi) = lo := by
  apply BitVec.eq_of_toNat_eq
  have h1 := lo.isLt
  rw [lowByte, joinBytes_toNat, BitVec.toNat_ofNat]
  omega

@[simp] theorem highByte_joinBytes (lo hi : Byte) : highByte (joinBytes lo hi) = hi := by
  apply BitVec.eq_of_toNat_eq
  have h1 := lo.isLt
  have h2 := hi.isLt
  rw [highByte, joinBytes_toNat, BitVec.toNat_ofNat]
  omega

@[simp] theorem joinBytes_halves (v : Half) : joinBytes (lowByte v) (highByte v) = v := by
  apply BitVec.eq_of_toNat_eq
  have h := v.isLt
  rw [joinBytes_toNat, lowByte, highByte, BitVec.toNat_ofNat, BitVec.toNat_ofNat]
  omega

end Sys2Proof.Machine
end

