-- ==== Sys2Proof/Laws/Memory.lean ====
section
/-! SUPPORT. The laws of the byte memory: read after write, other addresses, and the canonical form. -/

namespace Sys2Proof.Machine

theorem read?_write_same (m : Memory) (a : Nat) (v : Byte) : Memory.read? (Memory.write m a v) a = some v := by
  induction m with
  | nil => simp [Memory.write, Memory.read?]
  | cons e m ih =>
    obtain ⟨b, w⟩ := e
    simp only [Memory.write]
    split
    · simp [Memory.read?]
    · split
      · simp [Memory.read?]
      · rename_i h1 h2
        simp [Memory.read?, h2, ih]

theorem read?_write_other (m : Memory) {a c : Nat} (v : Byte) (h : c ≠ a) :
    Memory.read? (Memory.write m a v) c = Memory.read? m c := by
  induction m with
  | nil => simp [Memory.write, Memory.read?, h]
  | cons e m ih =>
    obtain ⟨b, w⟩ := e
    simp only [Memory.write]
    split
    · simp [Memory.read?, h]
    · split
      · rename_i h1 h2
        subst h2
        simp [Memory.read?, h]
      · simp only [Memory.read?, ih]

theorem read?_write (m : Memory) (a c : Nat) (v : Byte) :
    Memory.read? (Memory.write m a v) c = if c = a then some v else Memory.read? m c := by
  split
  · rename_i h; subst h; exact read?_write_same m c v
  · rename_i h; exact read?_write_other m v h

/-- Reading after a run of bytes was stored: a stored byte inside the run, the old byte outside it. -/
theorem read?_writeList (vs : List Byte) (m : Memory) (b c : Nat) :
    Memory.read? (Memory.writeList m b vs) c =
      if b ≤ c ∧ c < b + vs.length then vs[c - b]? else Memory.read? m c := by
  induction vs generalizing m b with
  | nil => simp [Memory.writeList]
  | cons v vs ih =>
    simp only [Memory.writeList, ih, read?_write, List.length_cons]
    by_cases h1 : c = b
    · subst h1; simp
    · by_cases h2 : b ≤ c ∧ c < b + (vs.length + 1)
      · have h3 : b + 1 ≤ c ∧ c < b + 1 + vs.length := by omega
        have h4 : c - b = (c - (b + 1)) + 1 := by omega
        rw [if_pos h3, if_pos h2, h4, List.getElem?_cons_succ]
      · have h3 : ¬(b + 1 ≤ c ∧ c < b + 1 + vs.length) := by omega
        rw [if_neg h3, if_neg h2, if_neg h1]

theorem rises_mono (m : Memory) {lo lo' hi : Nat} (h : lo' ≤ lo) (hm : Memory.rises lo hi m = true) :
    Memory.rises lo' hi m = true := by
  cases m with
  | nil => rfl
  | cons e m =>
    obtain ⟨b, w⟩ := e
    simp only [Memory.rises, Bool.and_eq_true, decide_eq_true_eq] at hm ⊢
    exact ⟨⟨by omega, hm.1.2⟩, hm.2⟩

theorem rises_write (m : Memory) {lo hi a : Nat} (v : Byte) (h1 : lo ≤ a) (h2 : a < hi)
    (hm : Memory.rises lo hi m = true) : Memory.rises lo hi (Memory.write m a v) = true := by
  induction m generalizing lo with
  | nil => simp [Memory.write, Memory.rises, h1, h2]
  | cons e m ih =>
    obtain ⟨b, w⟩ := e
    simp only [Memory.rises, Bool.and_eq_true, decide_eq_true_eq] at hm
    simp only [Memory.write]
    split
    · simp only [Memory.rises, Bool.and_eq_true, decide_eq_true_eq]
      exact ⟨⟨h1, h2⟩, ⟨by omega, hm.1.2⟩, hm.2⟩
    · split
      · rename_i h3 h4
        subst h4
        simp only [Memory.rises, Bool.and_eq_true, decide_eq_true_eq]
        exact ⟨⟨h1, h2⟩, hm.2⟩
      · simp only [Memory.rises, Bool.and_eq_true, decide_eq_true_eq]
        exact ⟨hm.1, ih (by omega) hm.2⟩

/-- One byte stored inside the buffers keeps the canonical form. -/
theorem wf_write {m : Memory} {a : Nat} (v : Byte) (h1 : 0x100 ≤ a) (h2 : a < 0x800) (hm : Memory.wf m = true) :
    Memory.wf (Memory.write m a v) = true := rises_write m v h1 h2 hm

/-- A run of bytes stored inside the buffers keeps the canonical form. -/
theorem wf_writeList {m : Memory} {a : Nat} (vs : List Byte) (h1 : 0x100 ≤ a) (h2 : a + vs.length ≤ 0x800)
    (hm : Memory.wf m = true) : Memory.wf (Memory.writeList m a vs) = true := by
  induction vs generalizing m a with
  | nil => exact hm
  | cons v vs ih =>
    simp only [List.length_cons] at h2
    exact ih (by omega) (by omega) (wf_write v h1 (by omega) hm)

/-- Storing into a buffer keeps the canonical form, whatever the bytes. -/
theorem wf_storeBuffer {m : Memory} (b : Buffer) (bytes : List Byte) (hm : Memory.wf m = true) :
    Memory.wf (storeBuffer m b bytes) = true := by
  refine wf_writeList _ ?_ ?_ hm
  · cases b <;> decide
  · have : (bytes.take (bufferSize b)).length ≤ bufferSize b := by simp
    have hs : bufferBase b + bufferSize b ≤ 0x800 := by cases b <;> decide
    omega

/-- The memory of the reset state has the canonical form. -/
theorem wf_reset : Memory.wf State.reset.ram = true := rfl

/-- Reading after bytes that fit were stored into a buffer. -/
theorem read?_storeBuffer {bytes : List Byte} (m : Memory) (b : Buffer) (c : Nat)
    (h : bytes.length ≤ bufferSize b) :
    Memory.read? (storeBuffer m b bytes) c =
      if bufferBase b ≤ c ∧ c < bufferBase b + bytes.length then bytes[c - bufferBase b]? else Memory.read? m c := by
  rw [storeBuffer, List.take_of_length_le h, read?_writeList]

/-- Equal canonical memories: two memories that read the same at every address are the same list. -/
theorem wf_ext {m m' : Memory} (hm : Memory.wf m = true) (hm' : Memory.wf m' = true)
    (h : ∀ a, Memory.read? m a = Memory.read? m' a) : m = m' := by
  have low : ∀ (m : Memory) (lo hi a : Nat), Memory.rises lo hi m = true → a < lo → Memory.read? m a = none := by
    intro m
    induction m with
    | nil => intros; rfl
    | cons e m ih =>
      intro lo hi a hr ha
      obtain ⟨b, w⟩ := e
      simp only [Memory.rises, Bool.and_eq_true, decide_eq_true_eq] at hr
      have : a ≠ b := by omega
      simp only [Memory.read?, this, if_false]
      exact ih _ _ _ hr.2 (by omega)
  have key : ∀ (m m' : Memory) (lo hi : Nat), Memory.rises lo hi m = true → Memory.rises lo hi m' = true →
      (∀ a, Memory.read? m a = Memory.read? m' a) → m = m' := by
    intro m
    induction m with
    | nil =>
      intro m' lo hi _ _ hr
      cases m' with
      | nil => rfl
      | cons e m' => obtain ⟨b, w⟩ := e; have := hr b; simp [Memory.read?] at this
    | cons e m ih =>
      intro m' lo hi h1 h2 hr
      obtain ⟨b, w⟩ := e
      cases m' with
      | nil => have := hr b; simp [Memory.read?] at this
      | cons e' m' =>
        obtain ⟨b', w'⟩ := e'
        simp only [Memory.rises, Bool.and_eq_true, decide_eq_true_eq] at h1 h2
        have hb : b = b' := by
          rcases Nat.lt_trichotomy b b' with hlt | heq | hgt
          · have := hr b
            have hn : b ≠ b' := by omega
            simp [Memory.read?, hn, low m' (b' + 1) hi b h2.2 (by omega)] at this
          · exact heq
          · have := hr b'
            have hn : b' ≠ b := by omega
            simp [Memory.read?, hn, low m (b + 1) hi b' h1.2 (by omega)] at this
        subst hb
        have hw : w = w' := by have := hr b; simpa [Memory.read?] using this
        subst hw
        congr 1
        refine ih m' (b + 1) hi h1.2 h2.2 ?_
        intro a
        have := hr a
        by_cases hab : a = b
        · subst hab
          rw [low m (a + 1) hi a h1.2 (by omega), low m' (a + 1) hi a h2.2 (by omega)]
        · simpa [Memory.read?, hab] using this
  exact key m m' _ _ hm hm' h

end Sys2Proof.Machine
end

