-- ==== Sys2Proof/Laws/State.lean ====
section
/-! SUPPORT. The fields of the state after each named update, one lemma per field, so that no proof unfolds a record
update. -/

namespace Sys2Proof.Machine

/-! ### `endWith` -/

@[simp] theorem endWith_phase (c : OutCode) (d : Detail) (s : State) : (endWith c d s).phase = .commit := rfl
@[simp] theorem endWith_pend (c : OutCode) (d : Detail) (s : State) : (endWith c d s).pend = some (c, d) := rfl
@[simp] theorem endWith_inp (c : OutCode) (d : Detail) (s : State) : (endWith c d s).inp = s.inp := rfl
@[simp] theorem endWith_done (c : OutCode) (d : Detail) (s : State) : (endWith c d s).done = s.done := rfl
@[simp] theorem endWith_overrun (c : OutCode) (d : Detail) (s : State) : (endWith c d s).overrun = s.overrun := rfl
@[simp] theorem endWith_busSuspect (c : OutCode) (d : Detail) (s : State) : (endWith c d s).busSuspect = s.busSuspect := rfl
@[simp] theorem endWith_rsvdErr (c : OutCode) (d : Detail) (s : State) : (endWith c d s).rsvdErr = s.rsvdErr := rfl
@[simp] theorem endWith_outcome (c : OutCode) (d : Detail) (s : State) : (endWith c d s).outcome = s.outcome := rfl
@[simp] theorem endWith_detail (c : OutCode) (d : Detail) (s : State) : (endWith c d s).detail = s.detail := rfl
@[simp] theorem endWith_ctrl (c : OutCode) (d : Detail) (s : State) : (endWith c d s).ctrl = s.ctrl := rfl
@[simp] theorem endWith_rxSrcId (c : OutCode) (d : Detail) (s : State) : (endWith c d s).rxSrcId = s.rxSrcId := rfl
@[simp] theorem endWith_rxError (c : OutCode) (d : Detail) (s : State) : (endWith c d s).rxError = s.rxError := rfl
@[simp] theorem endWith_rxPlen (c : OutCode) (d : Detail) (s : State) : (endWith c d s).rxPlen = s.rxPlen := rfl
@[simp] theorem endWith_txLen (c : OutCode) (d : Detail) (s : State) : (endWith c d s).txLen = s.txLen := rfl
@[simp] theorem endWith_rxRawLen (c : OutCode) (d : Detail) (s : State) : (endWith c d s).rxRawLen = s.rxRawLen := rfl
@[simp] theorem endWith_slots (c : OutCode) (d : Detail) (s : State) : (endWith c d s).slots = s.slots := rfl
@[simp] theorem endWith_ram (c : OutCode) (d : Detail) (s : State) : (endWith c d s).ram = s.ram := rfl
@[simp] theorem endWith_lat (c : OutCode) (d : Detail) (s : State) : (endWith c d s).lat = s.lat := rfl
@[simp] theorem endWith_frame (c : OutCode) (d : Detail) (s : State) : (endWith c d s).frame = s.frame := rfl
@[simp] theorem endWith_acc (c : OutCode) (d : Detail) (s : State) : (endWith c d s).acc = s.acc := rfl
@[simp] theorem endWith_rx (c : OutCode) (d : Detail) (s : State) : (endWith c d s).rx = s.rx := rfl
@[simp] theorem endWith_dec (c : OutCode) (d : Detail) (s : State) : (endWith c d s).dec = s.dec := rfl
@[simp] theorem endWith_rst (c : OutCode) (d : Detail) (s : State) : (endWith c d s).rst = s.rst := rfl
@[simp] theorem endWith_schedule (c : OutCode) (d : Detail) (s : State) : (endWith c d s).schedule = s.schedule := rfl
@[simp] theorem endWith_reads (c : OutCode) (d : Detail) (s : State) : (endWith c d s).reads = s.reads := rfl
@[simp] theorem endWith_busLog (c : OutCode) (d : Detail) (s : State) : (endWith c d s).busLog = s.busLog := rfl
@[simp] theorem endWith_txAnswers (c : OutCode) (d : Detail) (s : State) : (endWith c d s).txAnswers = s.txAnswers := rfl
@[simp] theorem endWith_rxAnswers (c : OutCode) (d : Detail) (s : State) : (endWith c d s).rxAnswers = s.rxAnswers := rfl
@[simp] theorem endWith_draws (c : OutCode) (d : Detail) (s : State) : (endWith c d s).draws = s.draws := rfl
@[simp] theorem endWith_epoch (c : OutCode) (d : Detail) (s : State) : (endWith c d s).epoch = s.epoch := rfl

/-! ### `startCommand` -/

@[simp] theorem startCommand_phase (d : Byte) (s : State) : (startCommand d s).phase = .check := rfl
@[simp] theorem startCommand_inp (d : Byte) (s : State) : (startCommand d s).inp = { s.inp with cmd := d } := rfl
@[simp] theorem startCommand_done (d : Byte) (s : State) : (startCommand d s).done = false := rfl
@[simp] theorem startCommand_overrun (d : Byte) (s : State) : (startCommand d s).overrun = s.overrun := rfl
@[simp] theorem startCommand_busSuspect (d : Byte) (s : State) : (startCommand d s).busSuspect = s.busSuspect := rfl
@[simp] theorem startCommand_rsvdErr (d : Byte) (s : State) : (startCommand d s).rsvdErr = s.rsvdErr := rfl
@[simp] theorem startCommand_outcome (d : Byte) (s : State) : (startCommand d s).outcome = s.outcome := rfl
@[simp] theorem startCommand_detail (d : Byte) (s : State) : (startCommand d s).detail = s.detail := rfl
@[simp] theorem startCommand_ctrl (d : Byte) (s : State) : (startCommand d s).ctrl = s.ctrl := rfl
@[simp] theorem startCommand_rxSrcId (d : Byte) (s : State) : (startCommand d s).rxSrcId = s.rxSrcId := rfl
@[simp] theorem startCommand_rxError (d : Byte) (s : State) : (startCommand d s).rxError = s.rxError := rfl
@[simp] theorem startCommand_rxPlen (d : Byte) (s : State) : (startCommand d s).rxPlen = s.rxPlen := rfl
@[simp] theorem startCommand_txLen (d : Byte) (s : State) : (startCommand d s).txLen = s.txLen := rfl
@[simp] theorem startCommand_rxRawLen (d : Byte) (s : State) : (startCommand d s).rxRawLen = s.rxRawLen := rfl
@[simp] theorem startCommand_slots (d : Byte) (s : State) : (startCommand d s).slots = s.slots := rfl
@[simp] theorem startCommand_ram (d : Byte) (s : State) : (startCommand d s).ram = s.ram := rfl
@[simp] theorem startCommand_lat (d : Byte) (s : State) : (startCommand d s).lat = snapshot { s with inp := { s.inp with cmd := d } } := rfl
@[simp] theorem startCommand_frame (d : Byte) (s : State) : (startCommand d s).frame = none := rfl
@[simp] theorem startCommand_acc (d : Byte) (s : State) : (startCommand d s).acc = none := rfl
@[simp] theorem startCommand_rx (d : Byte) (s : State) : (startCommand d s).rx = none := rfl
@[simp] theorem startCommand_dec (d : Byte) (s : State) : (startCommand d s).dec = none := rfl
@[simp] theorem startCommand_pend (d : Byte) (s : State) : (startCommand d s).pend = none := rfl
@[simp] theorem startCommand_rst (d : Byte) (s : State) : (startCommand d s).rst = s.rst := rfl
@[simp] theorem startCommand_schedule (d : Byte) (s : State) : (startCommand d s).schedule = s.schedule := rfl
@[simp] theorem startCommand_reads (d : Byte) (s : State) : (startCommand d s).reads = s.reads := rfl
@[simp] theorem startCommand_busLog (d : Byte) (s : State) : (startCommand d s).busLog = s.busLog := rfl
@[simp] theorem startCommand_txAnswers (d : Byte) (s : State) : (startCommand d s).txAnswers = s.txAnswers := rfl
@[simp] theorem startCommand_rxAnswers (d : Byte) (s : State) : (startCommand d s).rxAnswers = s.rxAnswers := rfl
@[simp] theorem startCommand_draws (d : Byte) (s : State) : (startCommand d s).draws = s.draws := rfl
@[simp] theorem startCommand_epoch (d : Byte) (s : State) : (startCommand d s).epoch = s.epoch := rfl

/-! ### `State.resetImage` -/

@[simp] theorem resetImage_phase (s : State) : s.resetImage.phase = (State.resetOf s.nsess).phase := rfl
@[simp] theorem resetImage_inp (s : State) : s.resetImage.inp = (State.resetOf s.nsess).inp := rfl
@[simp] theorem resetImage_done (s : State) : s.resetImage.done = (State.resetOf s.nsess).done := rfl
@[simp] theorem resetImage_overrun (s : State) : s.resetImage.overrun = (State.resetOf s.nsess).overrun := rfl
@[simp] theorem resetImage_busSuspect (s : State) : s.resetImage.busSuspect = (State.resetOf s.nsess).busSuspect := rfl
@[simp] theorem resetImage_rsvdErr (s : State) : s.resetImage.rsvdErr = (State.resetOf s.nsess).rsvdErr := rfl
@[simp] theorem resetImage_outcome (s : State) : s.resetImage.outcome = (State.resetOf s.nsess).outcome := rfl
@[simp] theorem resetImage_detail (s : State) : s.resetImage.detail = (State.resetOf s.nsess).detail := rfl
@[simp] theorem resetImage_ctrl (s : State) : s.resetImage.ctrl = (State.resetOf s.nsess).ctrl := rfl
@[simp] theorem resetImage_rxSrcId (s : State) : s.resetImage.rxSrcId = (State.resetOf s.nsess).rxSrcId := rfl
@[simp] theorem resetImage_rxError (s : State) : s.resetImage.rxError = (State.resetOf s.nsess).rxError := rfl
@[simp] theorem resetImage_rxPlen (s : State) : s.resetImage.rxPlen = (State.resetOf s.nsess).rxPlen := rfl
@[simp] theorem resetImage_txLen (s : State) : s.resetImage.txLen = (State.resetOf s.nsess).txLen := rfl
@[simp] theorem resetImage_rxRawLen (s : State) : s.resetImage.rxRawLen = (State.resetOf s.nsess).rxRawLen := rfl
@[simp] theorem resetImage_slots (s : State) : s.resetImage.slots = (State.resetOf s.nsess).slots := rfl
@[simp] theorem resetImage_ram (s : State) : s.resetImage.ram = (State.resetOf s.nsess).ram := rfl
@[simp] theorem resetImage_lat (s : State) : s.resetImage.lat = (State.resetOf s.nsess).lat := rfl
@[simp] theorem resetImage_frame (s : State) : s.resetImage.frame = (State.resetOf s.nsess).frame := rfl
@[simp] theorem resetImage_acc (s : State) : s.resetImage.acc = (State.resetOf s.nsess).acc := rfl
@[simp] theorem resetImage_rx (s : State) : s.resetImage.rx = (State.resetOf s.nsess).rx := rfl
@[simp] theorem resetImage_dec (s : State) : s.resetImage.dec = (State.resetOf s.nsess).dec := rfl
@[simp] theorem resetImage_pend (s : State) : s.resetImage.pend = (State.resetOf s.nsess).pend := rfl
@[simp] theorem resetImage_rst (s : State) : s.resetImage.rst = true := rfl
@[simp] theorem resetImage_schedule (s : State) : s.resetImage.schedule = s.schedule := rfl
@[simp] theorem resetImage_reads (s : State) : s.resetImage.reads = s.reads := rfl
@[simp] theorem resetImage_busLog (s : State) : s.resetImage.busLog = s.busLog := rfl
@[simp] theorem resetImage_txAnswers (s : State) : s.resetImage.txAnswers = s.txAnswers := rfl
@[simp] theorem resetImage_rxAnswers (s : State) : s.resetImage.rxAnswers = s.rxAnswers := rfl
@[simp] theorem resetImage_draws (s : State) : s.resetImage.draws = s.draws := rfl
@[simp] theorem resetImage_epoch (s : State) : s.resetImage.epoch = s.epoch + 1 := rfl

/-! ### `writeStatus` and `readTurn` -/

@[simp] theorem writeStatus_phase (d : Byte) (s : State) : (writeStatus d s).phase = s.phase := rfl
@[simp] theorem writeStatus_inp (d : Byte) (s : State) : (writeStatus d s).inp = s.inp := rfl
@[simp] theorem writeStatus_done (d : Byte) (s : State) : (writeStatus d s).done = (s.done && !d.getLsbD 1) := rfl
@[simp] theorem writeStatus_overrun (d : Byte) (s : State) : (writeStatus d s).overrun = (s.overrun && !d.getLsbD 2) := rfl
@[simp] theorem writeStatus_busSuspect (d : Byte) (s : State) : (writeStatus d s).busSuspect = s.busSuspect := rfl
@[simp] theorem writeStatus_rsvdErr (d : Byte) (s : State) : (writeStatus d s).rsvdErr = (s.rsvdErr && !d.getLsbD 4) := rfl
@[simp] theorem writeStatus_outcome (d : Byte) (s : State) : (writeStatus d s).outcome = s.outcome := rfl
@[simp] theorem writeStatus_detail (d : Byte) (s : State) : (writeStatus d s).detail = s.detail := rfl
@[simp] theorem writeStatus_ctrl (d : Byte) (s : State) : (writeStatus d s).ctrl = s.ctrl := rfl
@[simp] theorem writeStatus_rxSrcId (d : Byte) (s : State) : (writeStatus d s).rxSrcId = s.rxSrcId := rfl
@[simp] theorem writeStatus_rxError (d : Byte) (s : State) : (writeStatus d s).rxError = s.rxError := rfl
@[simp] theorem writeStatus_rxPlen (d : Byte) (s : State) : (writeStatus d s).rxPlen = s.rxPlen := rfl
@[simp] theorem writeStatus_txLen (d : Byte) (s : State) : (writeStatus d s).txLen = s.txLen := rfl
@[simp] theorem writeStatus_rxRawLen (d : Byte) (s : State) : (writeStatus d s).rxRawLen = s.rxRawLen := rfl
@[simp] theorem writeStatus_slots (d : Byte) (s : State) : (writeStatus d s).slots = s.slots := rfl
@[simp] theorem writeStatus_ram (d : Byte) (s : State) : (writeStatus d s).ram = s.ram := rfl
@[simp] theorem writeStatus_lat (d : Byte) (s : State) : (writeStatus d s).lat = s.lat := rfl
@[simp] theorem writeStatus_frame (d : Byte) (s : State) : (writeStatus d s).frame = s.frame := rfl
@[simp] theorem writeStatus_acc (d : Byte) (s : State) : (writeStatus d s).acc = s.acc := rfl
@[simp] theorem writeStatus_rx (d : Byte) (s : State) : (writeStatus d s).rx = s.rx := rfl
@[simp] theorem writeStatus_dec (d : Byte) (s : State) : (writeStatus d s).dec = s.dec := rfl
@[simp] theorem writeStatus_pend (d : Byte) (s : State) : (writeStatus d s).pend = s.pend := rfl
@[simp] theorem writeStatus_rst (d : Byte) (s : State) : (writeStatus d s).rst = s.rst := rfl
@[simp] theorem writeStatus_schedule (d : Byte) (s : State) : (writeStatus d s).schedule = s.schedule := rfl
@[simp] theorem writeStatus_reads (d : Byte) (s : State) : (writeStatus d s).reads = s.reads := rfl
@[simp] theorem writeStatus_busLog (d : Byte) (s : State) : (writeStatus d s).busLog = s.busLog := rfl
@[simp] theorem writeStatus_txAnswers (d : Byte) (s : State) : (writeStatus d s).txAnswers = s.txAnswers := rfl
@[simp] theorem writeStatus_rxAnswers (d : Byte) (s : State) : (writeStatus d s).rxAnswers = s.rxAnswers := rfl
@[simp] theorem writeStatus_draws (d : Byte) (s : State) : (writeStatus d s).draws = s.draws := rfl
@[simp] theorem writeStatus_epoch (d : Byte) (s : State) : (writeStatus d s).epoch = s.epoch := rfl
@[simp] theorem readTurn_phase (a : Addr) (s : State) : (readTurn a s).phase = s.phase := rfl
@[simp] theorem readTurn_inp (a : Addr) (s : State) : (readTurn a s).inp = s.inp := rfl
@[simp] theorem readTurn_done (a : Addr) (s : State) : (readTurn a s).done = s.done := rfl
@[simp] theorem readTurn_overrun (a : Addr) (s : State) : (readTurn a s).overrun = s.overrun := rfl
@[simp] theorem readTurn_busSuspect (a : Addr) (s : State) : (readTurn a s).busSuspect = s.busSuspect := rfl
@[simp] theorem readTurn_rsvdErr (a : Addr) (s : State) : (readTurn a s).rsvdErr = s.rsvdErr := rfl
@[simp] theorem readTurn_outcome (a : Addr) (s : State) : (readTurn a s).outcome = s.outcome := rfl
@[simp] theorem readTurn_detail (a : Addr) (s : State) : (readTurn a s).detail = s.detail := rfl
@[simp] theorem readTurn_ctrl (a : Addr) (s : State) : (readTurn a s).ctrl = s.ctrl := rfl
@[simp] theorem readTurn_rxSrcId (a : Addr) (s : State) : (readTurn a s).rxSrcId = s.rxSrcId := rfl
@[simp] theorem readTurn_rxError (a : Addr) (s : State) : (readTurn a s).rxError = s.rxError := rfl
@[simp] theorem readTurn_rxPlen (a : Addr) (s : State) : (readTurn a s).rxPlen = s.rxPlen := rfl
@[simp] theorem readTurn_txLen (a : Addr) (s : State) : (readTurn a s).txLen = s.txLen := rfl
@[simp] theorem readTurn_rxRawLen (a : Addr) (s : State) : (readTurn a s).rxRawLen = s.rxRawLen := rfl
@[simp] theorem readTurn_slots (a : Addr) (s : State) : (readTurn a s).slots = s.slots := rfl
@[simp] theorem readTurn_ram (a : Addr) (s : State) : (readTurn a s).ram = s.ram := rfl
@[simp] theorem readTurn_lat (a : Addr) (s : State) : (readTurn a s).lat = s.lat := rfl
@[simp] theorem readTurn_frame (a : Addr) (s : State) : (readTurn a s).frame = s.frame := rfl
@[simp] theorem readTurn_acc (a : Addr) (s : State) : (readTurn a s).acc = s.acc := rfl
@[simp] theorem readTurn_rx (a : Addr) (s : State) : (readTurn a s).rx = s.rx := rfl
@[simp] theorem readTurn_dec (a : Addr) (s : State) : (readTurn a s).dec = s.dec := rfl
@[simp] theorem readTurn_pend (a : Addr) (s : State) : (readTurn a s).pend = s.pend := rfl
@[simp] theorem readTurn_rst (a : Addr) (s : State) : (readTurn a s).rst = s.rst := rfl
@[simp] theorem readTurn_schedule (a : Addr) (s : State) : (readTurn a s).schedule = s.schedule := rfl
@[simp] theorem readTurn_reads (a : Addr) (s : State) : (readTurn a s).reads = s.reads ++ [hostRead a s] := rfl
@[simp] theorem readTurn_busLog (a : Addr) (s : State) : (readTurn a s).busLog = s.busLog := rfl
@[simp] theorem readTurn_txAnswers (a : Addr) (s : State) : (readTurn a s).txAnswers = s.txAnswers := rfl
@[simp] theorem readTurn_rxAnswers (a : Addr) (s : State) : (readTurn a s).rxAnswers = s.rxAnswers := rfl
@[simp] theorem readTurn_draws (a : Addr) (s : State) : (readTurn a s).draws = s.draws := rfl
@[simp] theorem readTurn_epoch (a : Addr) (s : State) : (readTurn a s).epoch = s.epoch := rfl

/-! ### The parts of COMMIT: the fields each leaves alone -/

@[simp] theorem commitFrame_phase (s : State) : (commitFrame s).phase = s.phase := by unfold commitFrame; split <;> rfl
@[simp] theorem commitFrame_inp (s : State) : (commitFrame s).inp = s.inp := by unfold commitFrame; split <;> rfl
@[simp] theorem commitFrame_done (s : State) : (commitFrame s).done = s.done := by unfold commitFrame; split <;> rfl
@[simp] theorem commitFrame_overrun (s : State) : (commitFrame s).overrun = s.overrun := by unfold commitFrame; split <;> rfl
@[simp] theorem commitFrame_busSuspect (s : State) : (commitFrame s).busSuspect = s.busSuspect := by unfold commitFrame; split <;> rfl
@[simp] theorem commitFrame_rsvdErr (s : State) : (commitFrame s).rsvdErr = s.rsvdErr := by unfold commitFrame; split <;> rfl
@[simp] theorem commitFrame_outcome (s : State) : (commitFrame s).outcome = s.outcome := by unfold commitFrame; split <;> rfl
@[simp] theorem commitFrame_detail (s : State) : (commitFrame s).detail = s.detail := by unfold commitFrame; split <;> rfl
@[simp] theorem commitFrame_ctrl (s : State) : (commitFrame s).ctrl = s.ctrl := by unfold commitFrame; split <;> rfl
@[simp] theorem commitFrame_rxSrcId (s : State) : (commitFrame s).rxSrcId = s.rxSrcId := by unfold commitFrame; split <;> rfl
@[simp] theorem commitFrame_rxError (s : State) : (commitFrame s).rxError = s.rxError := by unfold commitFrame; split <;> rfl
@[simp] theorem commitFrame_rxPlen (s : State) : (commitFrame s).rxPlen = s.rxPlen := by unfold commitFrame; split <;> rfl
@[simp] theorem commitFrame_rxRawLen (s : State) : (commitFrame s).rxRawLen = s.rxRawLen := by unfold commitFrame; split <;> rfl
@[simp] theorem commitFrame_slots (s : State) : (commitFrame s).slots = s.slots := by unfold commitFrame; split <;> rfl
@[simp] theorem commitFrame_lat (s : State) : (commitFrame s).lat = s.lat := by unfold commitFrame; split <;> rfl
@[simp] theorem commitFrame_frame (s : State) : (commitFrame s).frame = s.frame := by unfold commitFrame; split <;> rfl
@[simp] theorem commitFrame_acc (s : State) : (commitFrame s).acc = s.acc := by unfold commitFrame; split <;> rfl
@[simp] theorem commitFrame_rx (s : State) : (commitFrame s).rx = s.rx := by unfold commitFrame; split <;> rfl
@[simp] theorem commitFrame_dec (s : State) : (commitFrame s).dec = s.dec := by unfold commitFrame; split <;> rfl
@[simp] theorem commitFrame_pend (s : State) : (commitFrame s).pend = s.pend := by unfold commitFrame; split <;> rfl
@[simp] theorem commitFrame_rst (s : State) : (commitFrame s).rst = s.rst := by unfold commitFrame; split <;> rfl
@[simp] theorem commitFrame_schedule (s : State) : (commitFrame s).schedule = s.schedule := by unfold commitFrame; split <;> rfl
@[simp] theorem commitFrame_reads (s : State) : (commitFrame s).reads = s.reads := by unfold commitFrame; split <;> rfl
@[simp] theorem commitFrame_busLog (s : State) : (commitFrame s).busLog = s.busLog := by unfold commitFrame; split <;> rfl
@[simp] theorem commitFrame_txAnswers (s : State) : (commitFrame s).txAnswers = s.txAnswers := by unfold commitFrame; split <;> rfl
@[simp] theorem commitFrame_rxAnswers (s : State) : (commitFrame s).rxAnswers = s.rxAnswers := by unfold commitFrame; split <;> rfl
@[simp] theorem commitFrame_draws (s : State) : (commitFrame s).draws = s.draws := by unfold commitFrame; split <;> rfl
@[simp] theorem commitFrame_epoch (s : State) : (commitFrame s).epoch = s.epoch := by unfold commitFrame; split <;> rfl
@[simp] theorem commitRx_phase (s : State) : (commitRx s).phase = s.phase := by unfold commitRx; split <;> rfl
@[simp] theorem commitRx_inp (s : State) : (commitRx s).inp = s.inp := by unfold commitRx; split <;> rfl
@[simp] theorem commitRx_done (s : State) : (commitRx s).done = s.done := by unfold commitRx; split <;> rfl
@[simp] theorem commitRx_overrun (s : State) : (commitRx s).overrun = s.overrun := by unfold commitRx; split <;> rfl
@[simp] theorem commitRx_busSuspect (s : State) : (commitRx s).busSuspect = s.busSuspect := by unfold commitRx; split <;> rfl
@[simp] theorem commitRx_rsvdErr (s : State) : (commitRx s).rsvdErr = s.rsvdErr := by unfold commitRx; split <;> rfl
@[simp] theorem commitRx_outcome (s : State) : (commitRx s).outcome = s.outcome := by unfold commitRx; split <;> rfl
@[simp] theorem commitRx_detail (s : State) : (commitRx s).detail = s.detail := by unfold commitRx; split <;> rfl
@[simp] theorem commitRx_ctrl (s : State) : (commitRx s).ctrl = s.ctrl := by unfold commitRx; split <;> rfl
@[simp] theorem commitRx_rxSrcId (s : State) : (commitRx s).rxSrcId = s.rxSrcId := by unfold commitRx; split <;> rfl
@[simp] theorem commitRx_rxError (s : State) : (commitRx s).rxError = s.rxError := by unfold commitRx; split <;> rfl
@[simp] theorem commitRx_rxPlen (s : State) : (commitRx s).rxPlen = s.rxPlen := by unfold commitRx; split <;> rfl
@[simp] theorem commitRx_txLen (s : State) : (commitRx s).txLen = s.txLen := by unfold commitRx; split <;> rfl
@[simp] theorem commitRx_slots (s : State) : (commitRx s).slots = s.slots := by unfold commitRx; split <;> rfl
@[simp] theorem commitRx_lat (s : State) : (commitRx s).lat = s.lat := by unfold commitRx; split <;> rfl
@[simp] theorem commitRx_frame (s : State) : (commitRx s).frame = s.frame := by unfold commitRx; split <;> rfl
@[simp] theorem commitRx_acc (s : State) : (commitRx s).acc = s.acc := by unfold commitRx; split <;> rfl
@[simp] theorem commitRx_rx (s : State) : (commitRx s).rx = s.rx := by unfold commitRx; split <;> rfl
@[simp] theorem commitRx_dec (s : State) : (commitRx s).dec = s.dec := by unfold commitRx; split <;> rfl
@[simp] theorem commitRx_pend (s : State) : (commitRx s).pend = s.pend := by unfold commitRx; split <;> rfl
@[simp] theorem commitRx_rst (s : State) : (commitRx s).rst = s.rst := by unfold commitRx; split <;> rfl
@[simp] theorem commitRx_schedule (s : State) : (commitRx s).schedule = s.schedule := by unfold commitRx; split <;> rfl
@[simp] theorem commitRx_reads (s : State) : (commitRx s).reads = s.reads := by unfold commitRx; split <;> rfl
@[simp] theorem commitRx_busLog (s : State) : (commitRx s).busLog = s.busLog := by unfold commitRx; split <;> rfl
@[simp] theorem commitRx_txAnswers (s : State) : (commitRx s).txAnswers = s.txAnswers := by unfold commitRx; split <;> rfl
@[simp] theorem commitRx_rxAnswers (s : State) : (commitRx s).rxAnswers = s.rxAnswers := by unfold commitRx; split <;> rfl
@[simp] theorem commitRx_draws (s : State) : (commitRx s).draws = s.draws := by unfold commitRx; split <;> rfl
@[simp] theorem commitRx_epoch (s : State) : (commitRx s).epoch = s.epoch := by unfold commitRx; split <;> rfl
@[simp] theorem commitValid_phase (p : Plan) (s : State) : (commitValid p s).phase = s.phase := by unfold commitValid; split <;> rfl
@[simp] theorem commitValid_inp (p : Plan) (s : State) : (commitValid p s).inp = s.inp := by unfold commitValid; split <;> rfl
@[simp] theorem commitValid_done (p : Plan) (s : State) : (commitValid p s).done = s.done := by unfold commitValid; split <;> rfl
@[simp] theorem commitValid_overrun (p : Plan) (s : State) : (commitValid p s).overrun = s.overrun := by unfold commitValid; split <;> rfl
@[simp] theorem commitValid_busSuspect (p : Plan) (s : State) : (commitValid p s).busSuspect = s.busSuspect := by unfold commitValid; split <;> rfl
@[simp] theorem commitValid_outcome (p : Plan) (s : State) : (commitValid p s).outcome = s.outcome := by unfold commitValid; split <;> rfl
@[simp] theorem commitValid_detail (p : Plan) (s : State) : (commitValid p s).detail = s.detail := by unfold commitValid; split <;> rfl
@[simp] theorem commitValid_ctrl (p : Plan) (s : State) : (commitValid p s).ctrl = s.ctrl := by unfold commitValid; split <;> rfl
@[simp] theorem commitValid_txLen (p : Plan) (s : State) : (commitValid p s).txLen = s.txLen := by unfold commitValid; split <;> rfl
@[simp] theorem commitValid_rxRawLen (p : Plan) (s : State) : (commitValid p s).rxRawLen = s.rxRawLen := by unfold commitValid; split <;> rfl
@[simp] theorem commitValid_lat (p : Plan) (s : State) : (commitValid p s).lat = s.lat := by unfold commitValid; split <;> rfl
@[simp] theorem commitValid_frame (p : Plan) (s : State) : (commitValid p s).frame = s.frame := by unfold commitValid; split <;> rfl
@[simp] theorem commitValid_acc (p : Plan) (s : State) : (commitValid p s).acc = s.acc := by unfold commitValid; split <;> rfl
@[simp] theorem commitValid_rx (p : Plan) (s : State) : (commitValid p s).rx = s.rx := by unfold commitValid; split <;> rfl
@[simp] theorem commitValid_dec (p : Plan) (s : State) : (commitValid p s).dec = s.dec := by unfold commitValid; split <;> rfl
@[simp] theorem commitValid_pend (p : Plan) (s : State) : (commitValid p s).pend = s.pend := by unfold commitValid; split <;> rfl
@[simp] theorem commitValid_rst (p : Plan) (s : State) : (commitValid p s).rst = s.rst := by unfold commitValid; split <;> rfl
@[simp] theorem commitValid_schedule (p : Plan) (s : State) : (commitValid p s).schedule = s.schedule := by unfold commitValid; split <;> rfl
@[simp] theorem commitValid_reads (p : Plan) (s : State) : (commitValid p s).reads = s.reads := by unfold commitValid; split <;> rfl
@[simp] theorem commitValid_busLog (p : Plan) (s : State) : (commitValid p s).busLog = s.busLog := by unfold commitValid; split <;> rfl
@[simp] theorem commitValid_txAnswers (p : Plan) (s : State) : (commitValid p s).txAnswers = s.txAnswers := by unfold commitValid; split <;> rfl
@[simp] theorem commitValid_rxAnswers (p : Plan) (s : State) : (commitValid p s).rxAnswers = s.rxAnswers := by unfold commitValid; split <;> rfl
@[simp] theorem commitValid_draws (p : Plan) (s : State) : (commitValid p s).draws = s.draws := by unfold commitValid; split <;> rfl
@[simp] theorem commitValid_epoch (p : Plan) (s : State) : (commitValid p s).epoch = s.epoch := by unfold commitValid; split <;> rfl

/-! ### `commitPhase`: the fields it writes itself, and those it leaves alone -/

@[simp] theorem commitPhase_phase (p : Plan) (s : State) : (commitPhase p s).phase = .idle := rfl
@[simp] theorem commitPhase_inp (p : Plan) (s : State) : (commitPhase p s).inp = s.inp := by simp [commitPhase]
@[simp] theorem commitPhase_done (p : Plan) (s : State) : (commitPhase p s).done = true := rfl
@[simp] theorem commitPhase_overrun (p : Plan) (s : State) : (commitPhase p s).overrun = s.overrun := by simp [commitPhase]
@[simp] theorem commitPhase_busSuspect (p : Plan) (s : State) : (commitPhase p s).busSuspect = suspectAfter p s (pendingOutcome s).1 := rfl
@[simp] theorem commitPhase_rsvdErr (p : Plan) (s : State) : (commitPhase p s).rsvdErr = (commitValid p (commitRx (commitFrame s))).rsvdErr := rfl
@[simp] theorem commitPhase_outcome (p : Plan) (s : State) : (commitPhase p s).outcome = outCodeByte (pendingOutcome s).1 := rfl
@[simp] theorem commitPhase_detail (p : Plan) (s : State) : (commitPhase p s).detail = detailByte (pendingOutcome s).2 := rfl
@[simp] theorem commitPhase_ctrl (p : Plan) (s : State) : (commitPhase p s).ctrl = s.ctrl := by simp [commitPhase]
@[simp] theorem commitPhase_rxSrcId (p : Plan) (s : State) : (commitPhase p s).rxSrcId = (commitValid p (commitRx (commitFrame s))).rxSrcId := rfl
@[simp] theorem commitPhase_rxError (p : Plan) (s : State) : (commitPhase p s).rxError = (commitValid p (commitRx (commitFrame s))).rxError := rfl
@[simp] theorem commitPhase_rxPlen (p : Plan) (s : State) : (commitPhase p s).rxPlen = (commitValid p (commitRx (commitFrame s))).rxPlen := rfl
@[simp] theorem commitPhase_txLen (p : Plan) (s : State) : (commitPhase p s).txLen = (commitValid p (commitRx (commitFrame s))).txLen := rfl
@[simp] theorem commitPhase_rxRawLen (p : Plan) (s : State) : (commitPhase p s).rxRawLen = (commitValid p (commitRx (commitFrame s))).rxRawLen := rfl
@[simp] theorem commitPhase_slots (p : Plan) (s : State) : (commitPhase p s).slots = (commitValid p (commitRx (commitFrame s))).slots := rfl
@[simp] theorem commitPhase_ram (p : Plan) (s : State) : (commitPhase p s).ram = (commitValid p (commitRx (commitFrame s))).ram := rfl
@[simp] theorem commitPhase_lat (p : Plan) (s : State) : (commitPhase p s).lat = s.lat := by simp [commitPhase]
@[simp] theorem commitPhase_frame (p : Plan) (s : State) : (commitPhase p s).frame = s.frame := by simp [commitPhase]
@[simp] theorem commitPhase_acc (p : Plan) (s : State) : (commitPhase p s).acc = s.acc := by simp [commitPhase]
@[simp] theorem commitPhase_rx (p : Plan) (s : State) : (commitPhase p s).rx = s.rx := by simp [commitPhase]
@[simp] theorem commitPhase_dec (p : Plan) (s : State) : (commitPhase p s).dec = s.dec := by simp [commitPhase]
@[simp] theorem commitPhase_pend (p : Plan) (s : State) : (commitPhase p s).pend = s.pend := by simp [commitPhase]
@[simp] theorem commitPhase_rst (p : Plan) (s : State) : (commitPhase p s).rst = s.rst := by simp [commitPhase]
@[simp] theorem commitPhase_schedule (p : Plan) (s : State) : (commitPhase p s).schedule = s.schedule := by simp [commitPhase]
@[simp] theorem commitPhase_reads (p : Plan) (s : State) : (commitPhase p s).reads = s.reads := by simp [commitPhase]
@[simp] theorem commitPhase_busLog (p : Plan) (s : State) : (commitPhase p s).busLog = s.busLog := by simp [commitPhase]
@[simp] theorem commitPhase_txAnswers (p : Plan) (s : State) : (commitPhase p s).txAnswers = s.txAnswers := by simp [commitPhase]
@[simp] theorem commitPhase_rxAnswers (p : Plan) (s : State) : (commitPhase p s).rxAnswers = s.rxAnswers := by simp [commitPhase]
@[simp] theorem commitPhase_draws (p : Plan) (s : State) : (commitPhase p s).draws = s.draws := by simp [commitPhase]
@[simp] theorem commitPhase_epoch (p : Plan) (s : State) : (commitPhase p s).epoch = s.epoch := by simp [commitPhase]

end Sys2Proof.Machine
end

