-- ==== Sys2Proof/Laws/Ops.lean ====
section
/-! SUPPORT. What each shared operation can do, said once: the Transport calls, the phases, a block step, a host write,
and a step of the machine. -/

namespace Sys2Proof.Machine

/-! ### The Transport -/

/-- A `TxWrite` that returns accepts at most the frame, uses up an answer or a draw, and is logged. -/
theorem txWrite_spec {f : List Byte} {s t : State} {a : Nat} (h : txWrite f s = some (a, t)) :
    a ≤ f.length ∧ ∃ rest n,
      t = { s with txAnswers := rest, draws := n, busLog := s.busLog ++ [.txWrite f a] } := by
  unfold txWrite at h
  split at h
  · simp only [Option.some.injEq, Prod.mk.injEq] at h
    obtain ⟨rfl, rfl⟩ := h
    exact ⟨Nat.min_le_right _ _, _, _, rfl⟩
  · cases h
  · simp only [Option.some.injEq, Prod.mk.injEq] at h
    obtain ⟨rfl, rfl⟩ := h
    exact ⟨Nat.min_le_right _ _, _, _, rfl⟩

/-- An `RxRead` that returns gives at most `k` bytes, uses up an answer or a draw, and is logged. -/
theorem rxRead_spec {k : Nat} {s t : State} {bytes : List Byte} (h : rxRead k s = some (bytes, t)) :
    bytes.length ≤ k ∧ ∃ rest n,
      t = { s with rxAnswers := rest, draws := n, busLog := s.busLog ++ [.rxRead k bytes] } := by
  unfold rxRead at h
  split at h
  · simp only [Option.some.injEq, Prod.mk.injEq] at h
    obtain ⟨rfl, rfl⟩ := h
    exact ⟨by simp, _, _, rfl⟩
  · cases h
  · simp only [Option.some.injEq, Prod.mk.injEq] at h
    obtain ⟨rfl, rfl⟩ := h
    exact ⟨by simp, _, _, rfl⟩

/-- The Transport takes the answer it holds, when that answer is within the frame's length. -/
theorem txWrite_answer {f : List Byte} {s : State} {a : Nat} {rest : List (Option Nat)}
    (h : s.txAnswers = some a :: rest) (ha : a ≤ f.length) :
    txWrite f s = some (a, { s with txAnswers := rest, busLog := s.busLog ++ [.txWrite f a] }) := by
  simp [txWrite, h, Nat.min_eq_left ha]

/-- The Transport returns the bytes it holds, when they fit. -/
theorem rxRead_answer {k : Nat} {s : State} {bytes : List Byte} {rest : List (Option (List Byte))}
    (h : s.rxAnswers = some bytes :: rest) (hb : bytes.length ≤ k) :
    rxRead k s = some (bytes, { s with rxAnswers := rest, busLog := s.busLog ++ [.rxRead k bytes] }) := by
  simp [rxRead, h, List.take_of_length_le hb]

/-! ### The phases -/

theorem checkPhase_cases (p : Plan) (s : State) :
    (∃ c d, p.check = some (c, d) ∧ checkPhase p s = endWith c d s) ∨
    (p.check = none ∧ p.endsInCheck = true ∧ checkPhase p s = endWith .ok .zero s) ∨
    (p.check = none ∧ p.endsInCheck = false ∧ checkPhase p s = { s with phase := .build }) := by
  unfold checkPhase
  split
  · rename_i c d h; exact .inl ⟨c, d, h, rfl⟩
  · rename_i h
    cases he : p.endsInCheck
    · exact .inr (.inr ⟨h, rfl, by simp⟩)
    · exact .inr (.inl ⟨h, rfl, by simp⟩)

/-- TX: the call hangs, or it returns `a` and the command ends TX_INCOMPLETE, goes on to RX, or ends OK. -/
theorem txPhase_cases (p : Plan) (s : State) :
    (txWrite (s.frame.getD []) s = none ∧ txPhase p s = s) ∨
    ∃ a t, txWrite (s.frame.getD []) s = some (a, t) ∧
      ((a < (s.frame.getD []).length ∧ txPhase p s = endWith .txIncomplete .zero { t with acc := some a }) ∨
       (a = (s.frame.getD []).length ∧ p.reply.isSome = true ∧ txPhase p s = { t with acc := some a, phase := .rx }) ∨
       (a = (s.frame.getD []).length ∧ p.reply = none ∧ txPhase p s = endWith .ok .zero { t with acc := some a })) := by
  unfold txPhase
  split
  · rename_i h; exact .inl ⟨h, rfl⟩
  · rename_i a t h
    refine .inr ⟨a, t, h, ?_⟩
    have hle := (txWrite_spec h).1
    by_cases hlt : a < (s.frame.getD []).length
    · exact .inl ⟨hlt, by simp [hlt]⟩
    · have he : a = (s.frame.getD []).length := by omega
      cases hr : p.reply with
      | none => exact .inr (.inr ⟨he, rfl, by simp [hlt]⟩)
      | some e => exact .inr (.inl ⟨he, rfl, by simp [hlt]⟩)

/-- RX: the call hangs, or it returns bytes and the command ends NO_REPLY or goes on to DECODE. -/
theorem rxPhase_cases (p : Plan) (s : State) :
    (rxRead (p.reply.getD 0) s = none ∧ rxPhase p s = s) ∨
    ∃ bytes t, rxRead (p.reply.getD 0) s = some (bytes, t) ∧
      ((bytes = [] ∧ rxPhase p s = endWith .noReply .zero { t with rx := some bytes }) ∨
       (bytes ≠ [] ∧ rxPhase p s = { t with rx := some bytes, phase := .decode })) := by
  unfold rxPhase
  split
  · rename_i h; exact .inl ⟨h, rfl⟩
  · rename_i bytes t h
    refine .inr ⟨bytes, t, h, ?_⟩
    cases bytes with
    | nil => exact .inl ⟨rfl, rfl⟩
    | cons b bs => exact .inr ⟨by simp, rfl⟩

/-- DECODE always ends the command, with the decoded result latched. -/
theorem decodePhase_ends (p : Plan) (s : State) :
    ∃ c d, decodePhase p s = endWith c d { s with dec := some (decodeInput p s) } := by
  simp only [decodePhase]
  cases h : decodeInput p s with
  | malformed d => exact ⟨_, _, rfl⟩
  | checksumMismatch => exact ⟨_, _, rfl⟩
  | valid src err params =>
    simp only
    split
    · exact ⟨_, _, rfl⟩
    · split <;> exact ⟨_, _, rfl⟩

/-- BUILD without a frame is DECODE. -/
theorem buildPhase_noFrame {p : Plan} (s : State) (h : p.frame = none) : buildPhase p s = decodePhase p s := by
  simp only [buildPhase, h]
  rfl

/-- BUILD: the frame goes to TX or ends the command; without a frame the command ends with a decoded result. -/
theorem buildPhase_cases (p : Plan) (s : State) :
    (p.frame = none ∧ ∃ c d, buildPhase p s = endWith c d { s with dec := some (decodeInput p s) }) ∨
    (∃ f, p.frame = some f ∧ p.sends = true ∧ buildPhase p s = { s with frame := some f, phase := .tx }) ∨
    (∃ f, p.frame = some f ∧ p.sends = false ∧ buildPhase p s = endWith .ok .zero { s with frame := some f }) := by
  cases h : p.frame with
  | none => exact .inl ⟨rfl, buildPhase_noFrame s h ▸ decodePhase_ends p s⟩
  | some f =>
    cases hs : p.sends
    · exact .inr (.inr ⟨f, rfl, rfl, by simp [buildPhase, h, hs]⟩)
    · exact .inr (.inl ⟨f, rfl, rfl, by simp [buildPhase, h, hs]⟩)

/-! ### One block step -/

/-- The plan of each command: `exec` is one phase of it. -/
def planOf (i : Instr) (s : State) : Plan :=
  match i with
  | .nop _ => planNop
  | .ping _ => planPing s
  | .readBytes k => readPlan k (count s) s
  | .readWords k => readPlan k (wordCount s) s
  | .writeBytes k => writePlan k (count s) s
  | .writeWords k => writePlan k (wordCount s) s
  | .action k => planAction k s
  | .syncWrite _ => planSyncWrite s
  | .encode _ => rawPlan false s
  | .sendRaw _ => rawPlan true s
  | .decode _ => planDecode
  | .reservedB _ | .reservedC _ | .reservedD _ | .reservedE _ | .reservedF _ => planReserved

theorem exec_eq_runPhase (i : Instr) (s : State) : exec i s = runPhase (planOf i s) s := by cases i <;> rfl

/-- What a block step that answers a next state does: the phase it is in, and that phase's operation. -/
theorem runPhase_cases {p : Plan} {s t : State} (h : runPhase p s = .next t) :
    (s.phase = .idle ∧ t = s) ∨ (s.phase = .check ∧ t = checkPhase p s) ∨ (s.phase = .build ∧ t = buildPhase p s) ∨
    (s.phase = .tx ∧ t = txPhase p s) ∨ (s.phase = .rx ∧ t = rxPhase p s) ∨
    (s.phase = .decode ∧ t = decodePhase p s) ∨ (s.phase = .commit ∧ t = commitPhase p s) := by
  unfold runPhase at h
  split at h <;> first
    | (simp only [Host.Outcome.next.injEq] at h; subst h; simp_all)
    | cases h

/-! ### Host accesses and steps -/

/-- A host write is ignored under reset, is blocked while busy, or has its location's effect. -/
theorem hostWrite_cases (a : Addr) (d : Byte) (s : State) :
    (s.rst = true ∧ hostWrite a d s = s) ∨
    (s.rst = false ∧ s.busy = true ∧ blockedWhileBusy (locate s.nsess a.toNat) = true ∧
      hostWrite a d s = { s with overrun := true }) ∨
    (s.rst = false ∧ (s.busy = false ∨ blockedWhileBusy (locate s.nsess a.toNat) = false) ∧
      hostWrite a d s = writeLoc (locate s.nsess a.toNat) a.toNat d s) := by
  unfold hostWrite
  cases hr : s.rst with
  | true => exact .inl ⟨rfl, by simp⟩
  | false =>
    cases hb : s.busy with
    | false => exact .inr (.inr ⟨rfl, .inl rfl, by simp⟩)
    | true =>
      cases hl : blockedWhileBusy (locate s.nsess a.toNat) with
      | false => exact .inr (.inr ⟨rfl, .inr rfl, by simp⟩)
      | true => exact .inr (.inl ⟨rfl, rfl, rfl, by simp⟩)

/-- The block's turn: no step, or one block step of the latched command. -/
theorem blockTurn_cases (s : State) :
    ((s.rst = true ∨ s.phase = .idle) ∧ blockTurn s = .next s) ∨
    (s.rst = false ∧ s.phase ≠ .idle ∧ blockTurn s = exec (decodeCmd s.lat.inp.cmd) s) := by
  unfold blockTurn State.busy
  cases hr : s.rst with
  | true => exact .inl ⟨.inl rfl, by simp⟩
  | false =>
    by_cases hp : s.phase = .idle
    · exact .inl ⟨.inr hp, by simp [hp]⟩
    · exact .inr ⟨rfl, hp, by simp [hp]⟩

/-- What a step that answers a next state does. -/
theorem step_cases {s t : State} (h : step s = .next t) :
    (s.schedule = [] ∧ blockTurn s = .next t) ∨
    ∃ turn rest, s.schedule = turn :: rest ∧
      ((turn = .block ∧ blockTurn { s with schedule := rest } = .next t) ∨
       (∃ a, turn = .read a ∧ t = readTurn a { s with schedule := rest }) ∨
       (∃ a d, turn = .write a d ∧ t = hostWrite a d { s with schedule := rest }) ∨
       (∃ l, turn = .rst l ∧ t = setReset l { s with schedule := rest })) := by
  unfold step at h
  split at h
  · rename_i hs; exact .inl ⟨hs, h⟩
  · rename_i rest hs; exact .inr ⟨_, _, hs, .inl ⟨rfl, h⟩⟩
  · rename_i a rest hs; exact .inr ⟨_, _, hs, .inr (.inl ⟨a, rfl, by simpa using h.symm⟩)⟩
  · rename_i a d rest hs; exact .inr ⟨_, _, hs, .inr (.inr (.inl ⟨a, d, rfl, by simpa using h.symm⟩))⟩
  · rename_i l rest hs; exact .inr ⟨_, _, hs, .inr (.inr (.inr ⟨l, rfl, by simpa using h.symm⟩))⟩

end Sys2Proof.Machine
end

