-- ==== Sys2Proof/Laws/PerInstr.lean ====
section
/-! SUPPORT. The per-instruction family `EncodedFields`: the encoded byte of a well-formed command carries its opcode in
bits 3:0 and its slot in bits 7:4 (30_encoding.md R95). -/

namespace Sys2Proof.Laws.EncodedFields

/-- Bits 3:0 of the command byte are the command's opcode, bits 7:4 its `SLOT`. -/
def Statement (i : Instr) : Prop :=
  i.wf = true → (Sys2Proof.encode i).toNat % 16 = opcode i ∧ (Sys2Proof.encode i).toNat / 16 = i.slot

/-- The fields of any byte `slot * 16 + op` whose parts fit. -/
theorem fields_of_parts {k op : Nat} (hk : k < 16) (ho : op < 16) :
    (BitVec.ofNat 8 (k * 16 + op)).toNat % 16 = op ∧ (BitVec.ofNat 8 (k * 16 + op)).toNat / 16 = k := by
  rw [BitVec.toNat_ofNat]
  omega

theorem opcode_lt (i : Instr) : opcode i < 16 := by cases i <;> simp [opcode]

theorem nop (k : Nat) : Statement (.nop k) := fun h => fields_of_parts (of_decide_eq_true h) (opcode_lt _)
theorem ping (k : Nat) : Statement (.ping k) := fun h => fields_of_parts (of_decide_eq_true h) (opcode_lt _)
theorem readBytes (k : Nat) : Statement (.readBytes k) := fun h => fields_of_parts (of_decide_eq_true h) (opcode_lt _)
theorem readWords (k : Nat) : Statement (.readWords k) := fun h => fields_of_parts (of_decide_eq_true h) (opcode_lt _)
theorem writeBytes (k : Nat) : Statement (.writeBytes k) := fun h => fields_of_parts (of_decide_eq_true h) (opcode_lt _)
theorem writeWords (k : Nat) : Statement (.writeWords k) := fun h => fields_of_parts (of_decide_eq_true h) (opcode_lt _)
theorem action (k : Nat) : Statement (.action k) := fun h => fields_of_parts (of_decide_eq_true h) (opcode_lt _)
theorem syncWrite (k : Nat) : Statement (.syncWrite k) := fun h => fields_of_parts (of_decide_eq_true h) (opcode_lt _)
theorem encode (k : Nat) : Statement (.encode k) := fun h => fields_of_parts (of_decide_eq_true h) (opcode_lt _)
theorem sendRaw (k : Nat) : Statement (.sendRaw k) := fun h => fields_of_parts (of_decide_eq_true h) (opcode_lt _)
theorem decode (k : Nat) : Statement (.decode k) := fun h => fields_of_parts (of_decide_eq_true h) (opcode_lt _)
theorem reservedB (k : Nat) : Statement (.reservedB k) := fun h => fields_of_parts (of_decide_eq_true h) (opcode_lt _)
theorem reservedC (k : Nat) : Statement (.reservedC k) := fun h => fields_of_parts (of_decide_eq_true h) (opcode_lt _)
theorem reservedD (k : Nat) : Statement (.reservedD k) := fun h => fields_of_parts (of_decide_eq_true h) (opcode_lt _)
theorem reservedE (k : Nat) : Statement (.reservedE k) := fun h => fields_of_parts (of_decide_eq_true h) (opcode_lt _)
theorem reservedF (k : Nat) : Statement (.reservedF k) := fun h => fields_of_parts (of_decide_eq_true h) (opcode_lt _)

end Sys2Proof.Laws.EncodedFields
end

