-- ==== Sys2Proof/Tests/Slice0.lean ====
section
/-! SUPPORT. Own tests: the well-formedness smoke, decoding of written words, vectors of spec/95_test_vectors.md (named in
each comment), and one witness for the hypotheses of every statement. -/

namespace Sys2Proof.Tests

open Sys2Proof Sys2Proof.Machine

/-! ### Well-formedness and decoding -/

theorem test_wf_refuses_slot_16 : (Instr.ping 16).wf = false := by decide

theorem test_wf_accepts_slot_15 : (Instr.ping 15).wf = true := by decide

theorem test_decode_no_byte : decode [] = .error .noCommandByte := by decide

/-- The encoding of every row as R95 writes it, `SLOT` first: `SSSS_OOOO`. -/
theorem test_decode_words :
    [0b00000000, 0b00000001, 0b00010010, 0b00100011, 0b00110100, 0b01010101, 0b11110110, 0b00000111].map
      (decodeTableWord 8) =
    [some (.nop 0), some (.ping 0), some (.readBytes 1), some (.readWords 2), some (.writeBytes 3),
      some (.writeWords 5), some (.action 15), some (.syncWrite 0)] := by decide

theorem test_decode_words_high :
    [0b00001000, 0b00001001, 0b00001010, 0b00111011, 0b00001100, 0b00001101, 0b00001110, 0b11111111].map
      (decodeTableWord 8) =
    [some (.encode 0), some (.sendRaw 0), some (.decode 0), some (.reservedB 3), some (.reservedC 0),
      some (.reservedD 0), some (.reservedE 0), some (.reservedF 15)] := by decide

/-! ### The codec -/

/-- V-C1, V-C3, V-C5, V-C7, V-C8. -/
theorem test_checksum :
    [[0x01, 0x02, 0x01], [0xFD, 0x02, 0x01], [0xFA, 0x02, 0x03], [0xFF, 0xFF, 0xFF, 0xFF],
      [0x01, 0x04, 0x02, 0x2B, 0x01]].map checksum = [0xFB, 0xFF, 0x00, 0x03, 0xCC] := by decide

/-- V-C11. -/
theorem test_encode_frame :
    encodeFrame 1 0x02 [0x1E, 0x02] = [0xFF, 0xFF, 0x01, 0x04, 0x02, 0x1E, 0x02, 0xD8] := by decide

/-- V-D2, V-D3, V-D4, V-D5, V-D6, V-D7. -/
theorem test_decode_frame_rejects :
    [[0xFF, 0xFF, 0x01, 0x02, 0x00], [0xFE, 0xFF, 0x01], [0xFE, 0xFF, 0x01, 0x02, 0x00, 0xFC],
      [0xFF, 0xFF, 0x01, 0x03, 0x00, 0xFC], [0xFF, 0xFF, 0x01, 0x02, 0x00, 0xFC, 0x00],
      [0xFF, 0xFF, 0x01, 0x02, 0x00, 0xFD]].map (fun b => decodeFrame b b.length) =
    [.malformed .short, .malformed .short, .malformed .header, .malformed .length, .malformed .length,
      .checksumMismatch] := by decide

/-- V-D9, V-D11. -/
theorem test_decode_frame_accepts :
    decodeFrame [0xFF, 0xFF, 0x01, 0x04, 0x00, 0xFF, 0x01, 0xFA] 8 = .valid 1 0 [0xFF, 0x01] ∧
      decodeFrame [0xFF, 0xFF, 0x03, 0x02, 0x00, 0xFA] 6 = .valid 3 0 [] := by decide

/-- V-E1, V-E5, V-E10, V-E12, V-E14: the first fault of each error byte. -/
theorem test_first_fault : [0x00, 0x05, 0x60, 0x80, 0xFF].map firstFault = [7, 0, 5, 7, 0] := by decide

/-- S5: 0b00000101 is input voltage and overheating, no other. -/
theorem test_fault_set : faultSet 0b00000101 = [.inputVoltage, .overheating] := by decide

/-! ### The host port -/

/-- V-H8. -/
theorem test_slot_writes :
    let s := hostWrite 0x042 254 (hostWrite 0x042 255 (hostWrite 0x041 3 (hostWrite 0x040 254 State.reset)))
    [0x040, 0x041, 0x042].map (fun a => hostRead a s) = [1, 2, 254] := by decide

/-- V-H9: with one slot, slot 1 is reserved. -/
theorem test_one_slot :
    let s := hostWrite 0x044 7 (State.resetOf 1)
    hostRead 0x044 s = 0 ∧ hostRead 0x005 s = 1 := by decide

/-- V-H13. -/
theorem test_reg_limit_bytes :
    (hostWrite 0x00E 0x40 State.reset).inp.regLimit = 0x0140 ∧
      (hostWrite16 0x00E 0x0040 State.reset).inp.regLimit = 0x0040 := by decide

/-! ### One step of each command

`ready` is the reset state with operands and Transport answers set; a command is started on it by `startCommand`. -/

/-- Reset, with id 1, count 1, address 0x1E, the immediate flag, the word 512 in `TXDATA`, two records of V = 1 in
`BATCH` (V-Y1), and a Transport that takes `a` bytes and answers `reply`. -/
def ready (a : Nat) (reply : List Byte) : State :=
  { State.reset with
    inp := { Inputs.reset with cmdId := 1, cmdAddr := 0x1E, cmdCount := 1, cmdFlags := 1, cmdInstr := 1 }
    ram := Memory.writeList (Memory.writeList [] 0x100 [0x00, 0x02]) 0x700
      [0x01, 0x01, 0x10, 0x00, 0x02, 0x01, 0x20, 0x02]
    txAnswers := [some a]
    rxAnswers := [some reply] }

/-- The valid status reply of id 1 without payload (V-D8). -/
def goodReply : List Byte := [0xFF, 0xFF, 0x01, 0x02, 0x00, 0xFC]

/-- A command just started on `ready`, then put in phase `p`. -/
def at_ (cmd : Byte) (p : Phase) : State := { startCommand cmd (ready 6 goodReply) with phase := p }

/-- A field of the next state, if there is one. -/
def after {α : Type} (o : Host.Outcome State Fault Refusal) (f : State → α) : Option α :=
  match o with
  | .next s => some (f s)
  | .fault _ | .refused _ => none

/-- V-N2: NOP, SLOT ignored. -/
theorem test_nop_check : after (exec (.nop 15) (at_ 0xF0 .check)) State.pend = some (some (.ok, .zero)) := by decide

/-- V-N3, V-N4: the reserved opcodes. -/
theorem test_reserved_check :
    [Instr.reservedB 3, .reservedC 0, .reservedD 0, .reservedE 0, .reservedF 15].map
      (fun i => after (exec i (at_ 0x3B .check)) State.pend) =
    List.replicate 5 (some (some (.illegalCmd, .zero))) := by decide

/-- V-P1: the frame PING builds. -/
theorem test_ping_build :
    after (exec (.ping 0) (at_ 0x01 .build)) State.frame = some (some [0xFF, 0xFF, 0x01, 0x02, 0x01, 0xFB]) := by decide

/-- V-P3: PING of id 254. -/
theorem test_ping_bad_id :
    after (exec (.ping 0) (startCommand 0x01 (hostWrite 0x008 254 (ready 6 goodReply)))) State.pend =
      some (some (.usageError, .badId)) := by decide

/-- V-R1 with address 0x1E: the frame READ_BYTES builds. -/
theorem test_read_bytes_build :
    after (exec (.readBytes 0) (at_ 0x02 .build)) State.frame =
      some (some [0xFF, 0xFF, 0x01, 0x04, 0x02, 0x1E, 0x01, 0xD9]) := by decide

/-- V-R5: DEVICE_FAULT comes before PAYLOAD_LEN. -/
theorem test_read_bytes_fault_first :
    after (exec (.readBytes 0) { at_ 0x02 .decode with rx := some [0xFF, 0xFF, 0x01, 0x02, 0x04, 0xF8] }) State.pend =
      some (some (.deviceFault, .zero)) := by decide

/-- READ_WORDS of one word asks for two bytes (V-R8 with address 0x1E). -/
theorem test_read_words_build :
    after (exec (.readWords 0) (at_ 0x03 .build)) State.frame =
      some (some [0xFF, 0xFF, 0x01, 0x04, 0x02, 0x1E, 0x02, 0xD8]) := by decide

/-- V-R2: slot 4 of 4. -/
theorem test_read_words_bad_slot :
    after (exec (.readWords 4) (at_ 0x43 .check)) State.pend = some (some (.usageError, .badSlot)) := by decide

/-- V-W12: 253 data bytes and the address are too many. -/
theorem test_write_bytes_count :
    after (exec (.writeBytes 0) (startCommand 0x04 (hostWrite 0x00A 253 (ready 6 goodReply)))) State.pend =
      some (some (.usageError, .countRange)) := by decide

/-- V-W2: the frame WRITE_WORDS builds. -/
theorem test_write_words_build :
    after (exec (.writeWords 0) (at_ 0x05 .build)) State.frame =
      some (some [0xFF, 0xFF, 0x01, 0x05, 0x03, 0x1E, 0x00, 0x02, 0xD6]) := by decide

/-- V-W6: one word at 0xFF passes the limit. -/
theorem test_write_words_overflow :
    after (exec (.writeWords 0) (startCommand 0x05 (hostWrite 0x009 0xFF (ready 6 goodReply)))) State.pend =
      some (some (.usageError, .regOverflow)) := by decide

/-- V-A1: a broadcast ACTION; V-A3: a unicast one. -/
theorem test_action_build :
    after (exec (.action 0) { startCommand 0x06 (hostWrite 0x00B 2 (ready 6 goodReply)) with phase := .build })
      State.frame = some (some [0xFF, 0xFF, 0xFE, 0x02, 0x05, 0xFA]) ∧
    after (exec (.action 0) (at_ 0x06 .build)) State.frame =
      some (some [0xFF, 0xFF, 0x01, 0x02, 0x05, 0xF7]) := by decide

/-- V-Y1: the frame SYNC_WRITE builds. -/
theorem test_sync_write_build :
    after (exec (.syncWrite 0)
      { startCommand 0x07 (hostWrite 0x00A 2 (ready 14 goodReply)) with phase := .build }) State.frame =
    some (some [0xFF, 0xFF, 0xFE, 0x0A, 0x83, 0x1E, 0x02, 0x01, 0x10, 0x00, 0x02, 0x20, 0x02, 0x1F]) := by decide

/-- V-K1: ENCODE ends after BUILD. -/
theorem test_encode_build :
    after (exec (.encode 0) { startCommand 0x08 (hostWrite 0x00A 0 (ready 6 goodReply)) with phase := .build })
      (fun t => (t.phase, t.frame)) = some (.commit, some [0xFF, 0xFF, 0x01, 0x02, 0x01, 0xFB]) := by decide

/-- V-K7: SEND_RAW with 3 of 6 bytes accepted. -/
theorem test_send_raw_incomplete :
    after (exec (.sendRaw 0)
      { at_ 0x09 .tx with frame := some [0xFF, 0xFF, 0xFE, 0x02, 0x05, 0xFA], txAnswers := [some 3] })
      (fun t => (t.pend, t.acc)) = some (some (.txIncomplete, .zero), some 3) := by decide

/-- V-K8: DECODE of a faulting status, done in BUILD (R24, R25). -/
theorem test_decode_command :
    after (exec (.decode 0)
      { at_ 0x0A .build with
        ram := Memory.writeList [] 0x400 [0xFF, 0xFF, 0x01, 0x02, 0x05, 0xF7], rxRawLen := 6 })
      (fun t => (t.phase, t.pend, t.dec)) =
    some (.commit, some (.deviceFault, .zero), some (.valid 1 5 [])) := by decide

/-- V-W5, the COMMIT: `LAST_ERROR` of slot 0 only, and STATUS 0x22. -/
theorem test_commit_fault :
    after (exec (.writeWords 0)
      { at_ 0x05 .commit with
        pend := some (.deviceFault, .zero), dec := some (.valid 1 0x20 []), acc := some 6 })
      (fun t => (t.slots.map (·.lastError), statusByte t, firstFault t.rxError)) =
    some ([0x20, 0, 0, 0], 0x22, 5) := by decide

/-- V-P6, the COMMIT: STATUS 0x0A. -/
theorem test_commit_suspect :
    after (exec (.ping 0) { at_ 0x01 .commit with pend := some (.checksumMismatch, .zero), acc := some 6 })
      statusByte = some 0x0A := by decide

/-- A placed command is the next to run: PING with id 0, whose CHECK passes. -/
theorem test_placed_command :
    after (step (State.reset.withFetchWord 8 0x01)) State.phase = some .build ∧
      (State.reset.withFetchWord 8 0x01).lat.inp.cmd = 0x01 := by decide

/-! ### Witnesses: states and operands that meet the hypotheses of each statement -/

theorem witness_DecodeOfEncodeIsInstr : (Instr.nop 0).wf = true ∧ (Instr.reservedF 15).wf = true := by decide

theorem witness_StepRunsDecodedInstruction :
    (at_ 0x01 .check).rst = false ∧ (at_ 0x01 .check).phase ≠ .idle ∧
      decode [(at_ 0x01 .check).lat.inp.cmd] = .ok (.ping 0, []) ∧ (at_ 0x01 .check).schedule = [] ∧
      ({ at_ 0x01 .check with schedule := [.block, .read 0] } : State).schedule = .block :: [.read 0] := by decide

theorem witness_BlockWithoutStepStays :
    State.reset.phase = .idle ∧ State.reset.schedule = [] ∧ State.reset.resetImage.rst = true ∧
      (at_ 0x01 .tx).phase = .tx ∧
      ({ at_ 0x01 .tx with txAnswers := [none] } : State).txAnswers.head? = some none ∧
      (at_ 0x01 .rx).phase = .rx ∧
      ({ at_ 0x01 .rx with rxAnswers := [none] } : State).rxAnswers.head? = some none := by decide

theorem witness_PhasesGoForward :
    (at_ 0x01 .check).phase ≠ .unused ∧ (at_ 0x01 .check).phase ≠ .idle ∧ TransportReturns (at_ 0x01 .check) ∧
      (at_ 0x01 .commit).phase = .commit ∧ TransportReturns (at_ 0x01 .commit) := by
  unfold TransportReturns; decide

theorem witness_CommandsEndWithinSevenSteps :
    (at_ 0x02 .check).rst = false ∧ (at_ 0x02 .check).phase ≠ .unused ∧ (at_ 0x02 .check).schedule = [] ∧
      TransportReturns (at_ 0x02 .check) := by
  unfold TransportReturns; decide

theorem witness_ChecksumProperties :
    (0x00 : Byte) ≠ 0xFF ∧ byteSum [0xFD, 0x02, 0x01] % 256 = 0 ∧ byteSum [0xFA, 0x02, 0x03] % 256 = 255 := by decide

/-- The longest parameter list, for the frame layout and the round trip; and two equal frames. -/
theorem witness_EncodedFrameLayout :
    (List.replicate 253 (0xFF : Byte)).length ≤ 253 ∧ encodeFrame 255 0 [] = encodeFrame 255 0 [] :=
  ⟨le_of_eq List.length_replicate, rfl⟩

theorem witness_FrameRoundTrip : (List.replicate 253 (0x00 : Byte)).length ≤ 253 :=
  le_of_eq List.length_replicate

theorem witness_DecoderAcceptsExactlyFrames :
    6 ≤ goodReply.length ∧ decodeFrame goodReply 6 = .valid 1 0 [] ∧ goodReply.take 6 = encodeFrame 1 0 [] := by decide

/-- Every byte: 0 and 1, 3, and those of the checksum clause from 2 to the last. -/
theorem witness_SingleByteErrorsDetected :
    (encodeFrame 1 0 []).length = 6 ∧
      ∀ k ∈ [0, 1, 2, 3, 4, 5], (0x55 : Byte) ≠ byteOf (encodeFrame 1 0 []) k := by decide

/-- One input for each clause: 5 bytes; header; length; checksum; and `goodReply`, which passes. -/
theorem witness_DecoderCheckOrder :
    5 < 6 ∧ byteOf [0xFF, 0xFE, 0x01, 0x02, 0x00, 0xFC] 1 ≠ 0xFF ∧
      (byteOf goodReply 3).toNat + 4 ≠ 7 ∧ byteOf goodReply 0 = 0xFF ∧ byteOf goodReply 1 = 0xFF ∧
      (byteOf goodReply 3).toNat + 4 = 6 ∧ byteOf goodReply 5 = checksum (sliceOf goodReply 2 5) ∧
      (let b : List Byte := [0xFF, 0xFF, 0x01, 0x02, 0x00, 0xFD]
       byteOf b 0 = 0xFF ∧ byteOf b 1 = 0xFF ∧ (byteOf b 3).toNat + 4 = 6 ∧ byteOf b 5 ≠ checksum (sliceOf b 2 5)) := by
  decide

theorem witness_DecoderReadsAtMost259Bytes :
    (List.replicate 260 (0xFF : Byte)).take 259 = (List.replicate 259 (0xFF : Byte) ++ [0x00]).take 259 ∧
      259 < (List.replicate 260 (0xFF : Byte)).length := by
  rw [List.take_replicate, List.take_left' List.length_replicate, List.length_replicate]
  exact ⟨rfl, by decide⟩

theorem witness_FirstFaultIsLowestSetBit :
    (0x40 : Byte).getLsbD 6 = true ∧ (∀ j < 6, (0x40 : Byte).getLsbD j = false) ∧
      ∀ j ≤ 6, (0x80 : Byte).getLsbD j = false := by decide

theorem witness_IrqFollowsDoneAndEnable :
    let s := { State.reset with done := true, ctrl := 1 }
    s.rst = false ∧ s.phase = .idle ∧ irq s = true := by decide

theorem witness_CommandStart :
    let s := { State.reset with schedule := [.write 0x000 0x3B] }
    s.rst = false ∧ s.phase = .idle ∧ s.schedule = .write 0x000 0x3B :: [] ∧ s.slots[(0x3B : Byte).toNat / 16]? =
      some Slot.reset := by decide

/-- Both ends of the listed ranges are blocked; `STATUS` and `CTRL`; and `OUTCOME`, `LAST_ERROR` and the absent slot 4
are none of these. -/
theorem witness_BusyWritesAreBlocked :
    (at_ 0x01 .tx).rst = false ∧ (at_ 0x01 .tx).phase ≠ .idle ∧
      (∀ a ∈ [0x000, 0x008, 0x00C, 0x016, 0x025, 0x040, 0x04E, 0x100, 0x1FF, 0x400, 0x5FF, 0x700, 0x7FF],
        BlockedAddress (at_ 0x01 .tx).nsess a) ∧
      ∀ a ∈ [0x001, 0x002, 0x004, 0x007, 0x00D, 0x043, 0x050, 0x200, 0x3FF, 0x600, 0x6FF],
        ¬ BlockedAddress (at_ 0x01 .tx).nsess a := by
  unfold BlockedAddress; decide

theorem witness_ReadOnlyAndReservedIgnoreWrites :
    (∀ a ∈ [0x002, 0x005, 0x014, 0x043, 0x04F, 0x200, 0x3FF, 0x600, 0x6FF], ReadOnlyAddress State.reset.nsess a) ∧
      ∀ a ∈ [0x006, 0x007, 0x00D, 0x015, 0x01F, 0x03F, 0x050, 0x07F, 0x0FF], ReservedAddress State.reset.nsess a := by
  unfold ReadOnlyAddress ReservedAddress; decide

/-- The last buffer address, and the first and last slots an instance can have. -/
theorem witness_HostReadsChangeNothing :
    ({ State.reset with schedule := [.read 0x7FF, .block] } : State).schedule = .read 0x7FF :: [.block] ∧
      (State.resetOf 16).slots[0]? = some Slot.reset ∧ (State.resetOf 16).slots[15]? = some Slot.reset ∧
      0x100 ≤ (0x100 : Addr).toNat ∧ 0x100 ≤ (0x7FF : Addr).toNat := by decide

theorem witness_RegisterWriteReadsBack :
    State.reset.rst = false ∧ State.reset.phase = .idle ∧
      (0x008 : Addr) ∈ [(0x008 : Addr), 0x009, 0x00A, 0x00C, 0x00E, 0x00F, 0x016, 0x017, 0x020, 0x021, 0x022, 0x023,
        0x024, 0x025] := by decide

theorem witness_SlotFieldWrites :
    State.reset.rst = false ∧ State.reset.phase = .idle ∧ State.reset.slots[3]? = some Slot.reset ∧
      (State.resetOf 16).phase = .idle ∧ (State.resetOf 16).rst = false ∧
      (State.resetOf 16).slots[15]? = some Slot.reset := by decide

/-- The first and the last byte of each buffer the host may write. -/
theorem witness_BufferWriteThenRead :
    State.reset.rst = false ∧ State.reset.phase = .idle ∧
      (∀ a ∈ [(0x100 : Addr), 0x1FF], 0x100 ≤ a.toNat ∧ a.toNat < 0x200) ∧
      (∀ a ∈ [(0x400 : Addr), 0x5FF], 0x400 ≤ a.toNat ∧ a.toNat < 0x600) ∧
      ∀ a ∈ [(0x700 : Addr), 0x7FF], 0x700 ≤ a.toNat := by decide

theorem witness_HalfRegistersLittleEndian : State.reset.rst = false ∧ State.reset.phase = .idle := by decide

theorem witness_HostViewChangesOnlyAtCommit :
    (at_ 0x01 .check).phase ≠ .idle ∧ (at_ 0x01 .check).phase ≠ .commit ∧
      exec (.ping 0) (at_ 0x01 .check) = .next (at_ 0x01 .build) := ⟨by decide, by decide, rfl⟩

theorem witness_HostCannotDisturbRunningCommand :
    (at_ 0x01 .check).phase ≠ .idle ∧ exec (.ping 0) (at_ 0x01 .check) = .next (at_ 0x01 .build) := ⟨by decide, rfl⟩

/-- Commands just started, for NOP, the reserved opcodes and every other statement that begins at the start. -/
theorem started_startCommand (d : Byte) (s : State) : Started (startCommand d s) := ⟨rfl, rfl, rfl, rfl, rfl, rfl⟩

theorem witness_NopCompletes : Started (startCommand 0xF0 State.reset) := started_startCommand _ _

theorem witness_ReservedEndIllegal :
    Started (startCommand 0x3B State.reset) ∧
      Instr.reservedB 3 ∈ [Instr.reservedB 3, .reservedC 3, .reservedD 3, .reservedE 3, .reservedF 3] :=
  ⟨started_startCommand _ _, by decide⟩

/-- The boundary of both tests: id 254 and 253 parameters. -/
def rawLimit (cmd : Byte) : State :=
  startCommand cmd
    { ready 259 goodReply with inp := { Inputs.reset with cmdId := 254, cmdCount := 253, cmdInstr := 5 } }

theorem witness_EncodeCompletes :
    Started (rawLimit 0x08) ∧ (rawLimit 0x08).lat.inp.cmdId.toNat ≤ 254 ∧
      253 = (rawLimit 0x08).lat.inp.cmdCount.toNat :=
  ⟨started_startCommand _ _, by decide, by decide⟩

theorem witness_SendRawCompletes :
    Started (rawLimit 0x09) ∧ (rawLimit 0x09).lat.inp.cmdId.toNat ≤ 254 ∧
      253 = (rawLimit 0x09).lat.inp.cmdCount.toNat ∧ (rawLimit 0x09).txAnswers =
        some (encodeFrame (rawLimit 0x09).lat.inp.cmdId (rawLimit 0x09).lat.inp.cmdInstr
          (txdataBytes (rawLimit 0x09) 253)).length :: [] := by
  refine ⟨started_startCommand _ _, by decide, by decide, ?_⟩
  simp [encodeFrame, frameBody, txdataBytes, rawLimit, startCommand, ready]

/-- `RX_RAWLEN = 0` (V-K9), a wrong checksum (V-K12) and a valid frame (V-K8), one for each answer. -/
theorem witness_DecodeCompletes :
    Started (at_ 0x0A .check) ∧ decodeFrame [] 0 = .malformed .short ∧
      decodeFrame [0xFF, 0xFF, 0x01, 0x02, 0x00, 0xFD] 6 = .checksumMismatch ∧
      decodeFrame [0xFF, 0xFF, 0x01, 0x02, 0x05, 0xF7] 6 = .valid 1 5 [] :=
  ⟨started_startCommand _ _, by decide, by decide, by decide⟩

/-- An exchange answered by `goodReply`. -/
def goodExchange (frame : List Byte) (expected : Nat) : Exchange where
  frame := frame
  expected := expected
  reply := goodReply
  src := 1
  err := 0
  params := []
  txRest := []
  rxRest := []

/-- A command with operands `inp` and slot 0 at return level `srl`, started with a Transport that takes `a` bytes. -/
def begun (cmd : Byte) (inp : Inputs) (srl : Byte) (a : Nat) : State :=
  startCommand cmd
    { ready a goodReply with inp := inp, slots := [{ Slot.reset with srl := srl }, Slot.reset] }

theorem goodExchange_happens (cmd : Byte) (inp : Inputs) (srl : Byte) (frame : List Byte) (e : Nat) (he : 6 ≤ e) :
    (goodExchange frame e).happens (begun cmd inp srl frame.length) :=
  ⟨rfl, rfl, he, by show decodeFrame goodReply 6 = .valid 1 0 []; decide⟩

theorem witness_PingCompletes :
    let s := begun 0x01 { Inputs.reset with cmdId := 253 } 2 6
    let x := goodExchange [0xFF, 0xFF, 0xFD, 0x02, 0x01, 0xFF] 6
    Started s ∧ s.lat.inp.cmdId.toNat ≤ 253 ∧
      x.frame = [0xFF, 0xFF, s.lat.inp.cmdId, 0x02, s.lat.inp.instrPing,
        checksum [s.lat.inp.cmdId, 0x02, s.lat.inp.instrPing]] ∧ x.expected = 6 ∧ x.happens s :=
  ⟨started_startCommand _ _, by decide, by decide, rfl, goodExchange_happens _ _ _ _ _ (by decide)⟩

/-- READ_BYTES with `c = 253` (a payload of another length), and READ_WORDS with `c = 0` (V-R7). -/
theorem witness_ReadsComplete :
    (let s := begun 0x02 { Inputs.reset with cmdCount := 253 } 0 8
     let x := goodExchange (encodeFrame 1 2 [0, 253]) 259
     Started s ∧ 0 < s.nsess ∧ 253 = s.lat.inp.cmdCount.toNat ∧
       x.frame = encodeFrame s.lat.slotId s.lat.inp.instrRead [s.lat.inp.cmdAddr, BitVec.ofNat 8 253] ∧
       x.expected = 6 + 253 ∧ x.happens s ∧ x.err &&& 0x7F = 0 ∧ x.params.length ≠ 253) ∧
    (let s := begun 0x13 Inputs.reset 2 8
     let x := goodExchange (encodeFrame 1 2 [0, 0]) 6
     Started s ∧ 1 < s.nsess ∧ 0 = 2 * s.lat.inp.cmdCount.toNat ∧
       x.frame = encodeFrame s.lat.slotId s.lat.inp.instrRead [s.lat.inp.cmdAddr, BitVec.ofNat 8 0] ∧
       x.expected = 6 + 0 ∧ x.happens s) :=
  ⟨⟨started_startCommand _ _, by decide, by decide, by decide, rfl, goodExchange_happens _ _ _ _ _ (by decide),
      by decide, by decide⟩,
    started_startCommand _ _, by decide, by decide, by decide, rfl, goodExchange_happens _ _ _ _ _ (by decide)⟩

/-- WRITE_WORDS of one word that ends at the register limit (V-W7). -/
theorem witness_WritesWithStatusComplete :
    let s := begun 0x05 { Inputs.reset with cmdAddr := 0xFE, cmdCount := 1, cmdFlags := 1 } 2 9
    let x := goodExchange (encodeFrame 1 3 [0xFE, 0x00, 0x02]) 6
    Started s ∧ 0 < s.nsess ∧ 2 = 2 * s.lat.inp.cmdCount.toNat ∧
      s.lat.inp.cmdAddr.toNat + 2 ≤ s.lat.inp.regLimit.toNat ∧ s.lat.slotSrl = 2 ∧
      x.frame = encodeFrame s.lat.slotId
        (if s.lat.inp.cmdFlags.getLsbD 0 then s.lat.inp.instrWrite else s.lat.inp.instrRegWrite)
        (s.lat.inp.cmdAddr :: txdataBytes s 2) ∧ x.expected = 6 ∧ x.happens s :=
  ⟨started_startCommand _ _, by decide, by decide, by decide, by decide, by decide, rfl,
    goodExchange_happens _ _ _ _ _ (by decide)⟩

/-- WRITE_BYTES, buffered, at return levels 0 and 1. -/
theorem witness_WritesWithoutStatusComplete :
    ∀ srl ∈ [(0 : Byte), 1],
      let s := begun 0x04 { Inputs.reset with cmdCount := 1 } srl 8
      Started s ∧ 0 < s.nsess ∧ 1 = s.lat.inp.cmdCount.toNat ∧
        s.lat.inp.cmdAddr.toNat + 1 ≤ s.lat.inp.regLimit.toNat ∧ s.lat.slotSrl ≠ 2 ∧
        s.txAnswers = some (encodeFrame s.lat.slotId
          (if s.lat.inp.cmdFlags.getLsbD 0 then s.lat.inp.instrWrite else s.lat.inp.instrRegWrite)
          (s.lat.inp.cmdAddr :: txdataBytes s 1)).length :: [] := by
  unfold Started; decide

/-- Broadcast with an absent slot (V-A2), and unicast at level 1 (V-A5). -/
theorem witness_ActionWithoutStatusCompletes :
    (let s := begun 0xF6 { Inputs.reset with cmdFlags := 2 } 2 6
     Started s ∧ s.lat.inp.cmdFlags.getLsbD 1 = true ∧ s.txAnswers = some 6 :: []) ∧
    (let s := begun 0x06 Inputs.reset 1 6
     Started s ∧ s.lat.inp.cmdFlags.getLsbD 1 = false ∧ 0 < s.nsess ∧ s.lat.slotSrl ≠ 2 ∧
       s.txAnswers = some 6 :: []) := by
  unfold Started; decide

theorem witness_ActionWithStatusCompletes :
    let s := begun 0x06 Inputs.reset 2 6
    let x := goodExchange [0xFF, 0xFF, 0x01, 0x02, 0x05, 0xF7] 6
    Started s ∧ s.lat.inp.cmdFlags.getLsbD 1 = false ∧ 0 < s.nsess ∧ s.lat.slotSrl = 2 ∧
      x.frame = [0xFF, 0xFF, s.lat.slotId, 0x02, s.lat.inp.instrAction,
        checksum [s.lat.slotId, 0x02, s.lat.inp.instrAction]] ∧ x.expected = 6 ∧ x.happens s :=
  ⟨started_startCommand _ _, by decide, by decide, by decide, by decide, rfl,
    goodExchange_happens _ _ _ _ _ (by decide)⟩

/-- SYNC_WRITE started with `n` records and the bytes `batch` in `BATCH`. -/
def syncState (n addr : Byte) (batch : List Byte) (a : Nat) : State :=
  startCommand 0x07
    { ready a goodReply with
      inp := { Inputs.reset with cmdCount := n, cmdAddr := addr }, ram := Memory.writeList [] 0x700 batch }

/-- V-Y1. -/
theorem witness_SyncWriteCompletes :
    let s := syncState 2 0x1E [0x01, 0x01, 0x10, 0x00, 0x02, 0x01, 0x20, 0x02] 14
    Started s ∧ 2 = s.lat.inp.cmdCount.toNat ∧ BatchHolds s 2 1 ∧ 2 + 2 * (1 + 2 * 1) ≤ 253 ∧
      s.lat.inp.cmdAddr.toNat + 2 * 1 ≤ s.lat.inp.regLimit.toNat ∧
      s.txAnswers = some (encodeFrame 254 s.lat.inp.instrSyncWrite (syncPacketParams s 2 1)).length :: [] := by
  unfold Started BatchHolds; decide

/-- One state just past each limit, for every clause: PING of id 254, ENCODE of id 255, SEND_RAW of 254 parameters,
READ_BYTES of slot 4, READ_WORDS of 127 words, WRITE_BYTES of slot 4 and of 253 bytes, WRITE_WORDS at 0xFF, unicast
ACTION of slot 4. -/
theorem witness_RejectedCommandsOnlyReport :
    (∀ d, Started (startCommand d State.reset)) ∧
      253 < (startCommand 0x01 (hostWrite 0x008 254 State.reset)).lat.inp.cmdId.toNat ∧
      254 < (startCommand 0x08 (hostWrite 0x008 255 State.reset)).lat.inp.cmdId.toNat ∧
      (let s := startCommand 0x09 (hostWrite 0x00A 254 State.reset)
       s.lat.inp.cmdId.toNat ≤ 254 ∧ 253 < s.lat.inp.cmdCount.toNat) ∧
      (startCommand 0x42 State.reset).nsess ≤ 4 ∧
      (let s := startCommand 0x03 (hostWrite 0x00A 127 State.reset)
       0 < s.nsess ∧ 253 < 2 * s.lat.inp.cmdCount.toNat) ∧
      (let s := startCommand 0x04 (hostWrite 0x00A 253 State.reset)
       0 < s.nsess ∧ 252 < s.lat.inp.cmdCount.toNat) ∧
      (let s := startCommand 0x05 (hostWrite 0x009 0xFF (hostWrite 0x00A 1 State.reset))
       0 < s.nsess ∧ 2 * s.lat.inp.cmdCount.toNat ≤ 252 ∧
         s.lat.inp.regLimit.toNat < s.lat.inp.cmdAddr.toNat + 2 * s.lat.inp.cmdCount.toNat) ∧
      (startCommand 0x46 State.reset).lat.inp.cmdFlags.getLsbD 1 = false ∧ (startCommand 0x46 State.reset).nsess ≤ 4 :=
  ⟨fun _ => started_startCommand _ _, by decide, by decide, by decide, by decide, by decide, by decide, by decide,
    by decide, by decide⟩

/-- One batch for every clause: empty (V-Y4), a record that begins past the end, V = 128 (V-Y6), id 254 (V-Y5), a
mismatch (V-Y3 from its second record), too many parameters (V-Y7), past the limit (V-Y9). -/
theorem witness_SyncWriteRejections :
    (syncState 0 0 [] 0).lat.inp.cmdCount = 0 ∧
    (let s := syncState 2 0 [0x01, 0x7F] 0
     BatchHolds s 1 127 ∧ 1 < s.lat.inp.cmdCount.toNat ∧ 256 < 1 * (2 + 2 * 127) + 2) ∧
    (let s := syncState 1 0 [0x01, 0x80] 0
     BatchHolds s 0 0 ∧ 0 < s.lat.inp.cmdCount.toNat ∧ 256 < 0 * (2 + 2 * 0) + 2 + 2 * (s.byteAt 0x701).toNat) ∧
    (let s := syncState 2 0 [0x01, 0x01, 0x00, 0x02, 0xFE, 0x01] 0
     BatchHolds s 1 1 ∧ 1 < s.lat.inp.cmdCount.toNat ∧ 4 + 2 + 2 * (s.byteAt 0x705).toNat ≤ 256 ∧
       253 < (s.byteAt 0x704).toNat) ∧
    (let s := syncState 3 0x1E [0x01, 0x02, 0x00, 0x02, 0x64, 0x00, 0x02, 0x03, 0xFF, 0x03, 0x00, 0x01] 0
     BatchHolds s 1 2 ∧ 1 < s.lat.inp.cmdCount.toNat ∧ 6 + 2 + 2 * (s.byteAt 0x707).toNat ≤ 256 ∧
       (s.byteAt 0x706).toNat ≤ 253 ∧ (s.byteAt 0x707).toNat ≠ 2) ∧
    (let s := syncState 1 0 [0x01, 0x7E] 0
     BatchHolds s 1 126 ∧ 1 = s.lat.inp.cmdCount.toNat ∧ 253 < 2 + 1 * (1 + 2 * 126)) ∧
    (let s := syncState 1 0xFF [0x01, 0x01, 0x00, 0x00] 0
     BatchHolds s 1 1 ∧ 1 = s.lat.inp.cmdCount.toNat ∧ 2 + 1 * (1 + 2 * 1) ≤ 253 ∧
       s.lat.inp.regLimit.toNat < s.lat.inp.cmdAddr.toNat + 2 * 1) := by
  unfold BatchHolds; decide

/-- TX with 5 and with 6 of 6 bytes, for a command that expects a reply and for one that does not. -/
theorem witness_TxPhaseRule :
    ∀ a ∈ [5, 6],
      let s := { at_ 0x01 .tx with frame := some [0xFF, 0xFF, 0x01, 0x02, 0x01, 0xFB], txAnswers := [some a] }
      isBusCommand (.ping 0) = true ∧ isBusCommand (.sendRaw 0) = true ∧ s.phase = .tx ∧ a ≤ 6 ∧
        (expectedReply (.ping 0) s).isSome = true ∧ expectedReply (.sendRaw 0) s = none := by decide

/-- RX with no byte and with all 6. -/
theorem witness_ReplyOrNoReply :
    ∀ bytes ∈ [[], goodReply],
      let s := { at_ 0x01 .rx with rxAnswers := [some bytes] }
      s.phase = .rx ∧ expectedReply (.ping 0) s = some 6 ∧ s.rxAnswers = some bytes :: [] ∧ bytes.length ≤ 6 := by decide

theorem witness_BadReplyEndsCommand :
    isBusCommand (.readBytes 0) = true ∧ (at_ 0x02 .decode).phase = .decode ∧
      decodeFrame [0xFF, 0xFF, 0x01] 3 = .malformed .short ∧
      decodeFrame [0xFF, 0xFF, 0x01, 0x02, 0x00, 0xFD] 6 = .checksumMismatch := by decide

/-- COMMIT after a rejected command, after a PING's valid reply, after a slot command's, and after a bad reply. -/
theorem witness_CommitWritesEveryResult :
    (let s := { at_ 0x01 .commit with pend := some (.usageError, .badId) }
     s.phase = .commit ∧ (s.frame.getD []).length ≤ 512 ∧ (s.rx.getD []).length ≤ 512 ∧ s.dec = none) ∧
    (let s := { at_ 0x01 .commit with
                pend := some (.ok, .zero), frame := some goodReply, acc := some 6, rx := some goodReply,
                dec := some (.valid 1 0 []) }
     s.phase = .commit ∧ (s.frame.getD []).length ≤ 512 ∧ (s.rx.getD []).length ≤ 512 ∧
       slotOf (.ping 0) s = none ∧ slotOf (.readBytes 0) s = some 0) ∧
    (let s := { at_ 0x02 .commit with
                pend := some (.malformed, .short), frame := some goodReply, acc := some 6, rx := some [0xFF] }
     s.phase = .commit ∧ s.acc.isSome = true ∧ OutCode.malformed ∈ [OutCode.malformed, .checksumMismatch] ∧
       (s.frame.getD []).length ≤ 512 ∧ (s.rx.getD []).length ≤ 512 ∧ s.dec = none) := by decide

/-- A COMMIT that does write `LAST_ERROR`. -/
theorem witness_LastErrorOfOwnSlotOnly :
    let s := { at_ 0x02 .commit with pend := some (.deviceFault, .zero), dec := some (.valid 1 4 []) }
    after (exec (.readBytes 0) s) (·.slots) = some (withLastError s.slots 0 4) ∧
      withLastError s.slots 0 4 ≠ s.slots := by decide

/-- The two COMMITs and the reset that change `BUS_SUSPECT`. -/
theorem witness_BusSuspectRule :
    (let s := { at_ 0x01 .commit with pend := some (.malformed, .short), frame := some [], acc := some 0 }
     LatchesFit s ∧ after (step s) (·.busSuspect) = some true ∧ s.busSuspect = false) ∧
    (let s := { at_ 0x01 .commit with pend := some (.ok, .zero), busSuspect := true }
     LatchesFit s ∧ after (step s) (·.busSuspect) = some false) ∧
    (let s := { State.reset with busSuspect := true, schedule := [.rst true] }
     LatchesFit s ∧ after (step s) (·.busSuspect) = some false) :=
  ⟨⟨⟨rfl, fun _ => rfl, nofun⟩, by decide, rfl⟩, ⟨⟨rfl, nofun, nofun⟩, by decide⟩, trivial, by decide⟩

theorem witness_MemoryStaysCanonical :
    Memory.wf (at_ 0x01 .check).ram = true ∧ (at_ 0x01 .check).ram ≠ [] ∧
      after (step (at_ 0x01 .check)) (·.phase) = some .build := by decide

theorem witness_RegisterRangesStay :
    SlotsLegal (State.resetOf 1) ∧ SlotsLegal (State.resetOf 16) ∧ ReservedBitsZero (at_ 0x01 .check) ∧
      after (step (at_ 0x01 .check)) (·.phase) = some .build := by
  unfold SlotsLegal ReservedBitsZero; decide

theorem witness_LatchStaysCurrent :
    LatchCurrent (at_ 0x01 .check) ∧ after (step (at_ 0x01 .check)) (·.phase) = some .build :=
  ⟨fun _ => ⟨rfl, fun sl h => by
    have h' : some Slot.reset = some sl := h
    cases h'; decide⟩, by decide⟩

/-- Held in reset, while the host tries to write; and the release. -/
theorem witness_HeldResetStays :
    (let s := { State.reset.resetImage with schedule := [.write 0x000 0x01] }
     s.rst = true ∧ HeldAtReset s ∧ after (step s) (·.phase) = some .idle) ∧
    (let s := { State.reset.resetImage with schedule := [.rst false] }
     s.rst = true ∧ HeldAtReset s ∧ s.schedule = .rst false :: []) :=
  ⟨⟨rfl, fun _ => rfl, by decide⟩, rfl, fun _ => rfl, rfl⟩

/-- Every phase has a state with fitting latches. -/
theorem witness_LatchesStayFit :
    LatchesFit State.reset ∧ LatchesFit (at_ 0x01 .check) ∧ LatchesFit (at_ 0x01 .build) ∧
      LatchesFit { at_ 0x01 .tx with frame := some goodReply } ∧
      LatchesFit { at_ 0x01 .rx with frame := some goodReply, acc := some 6 } ∧
      LatchesFit { at_ 0x01 .decode with frame := some goodReply, acc := some 6, rx := some goodReply } ∧
      LatchesFit { at_ 0x01 .commit with pend := some (.ok, .zero) } :=
  ⟨trivial, ⟨rfl, rfl, rfl, rfl, rfl⟩, ⟨rfl, rfl, rfl, rfl, rfl⟩, ⟨rfl, rfl, rfl, rfl, rfl⟩,
    ⟨⟨_, rfl, rfl⟩, rfl, rfl, rfl⟩, ⟨⟨_, _, rfl, rfl, rfl, by decide⟩, rfl, rfl⟩, rfl, nofun, nofun⟩

/-- In RX after the command's `TxWrite`. -/
theorem witness_BusCallsStayInOrder :
    let s := { at_ 0x01 .rx with busLog := [.txWrite goodReply 6] }
    CallsInOrder s ∧ (∀ c ∈ s.busLog, CallBounded c) ∧ after (step s) (·.phase) = some .decode := by
  refine ⟨⟨rfl, fun _ => ⟨[], _, _, rfl⟩⟩, ?_, by decide⟩
  intro c hc
  simp only [List.mem_singleton] at hc
  subst hc
  show 6 ≤ goodReply.length
  decide

/-- In BUILD of a PING, with an earlier frame in the log. -/
theorem witness_FramesStayLegal :
    let s := { at_ 0x01 .build with busLog := [.txWrite (encodeFrame 1 1 []) 6] }
    FramesLegal s ∧ after (step s) (·.phase) = some .tx := by
  refine ⟨⟨by unfold SlotsLegal; decide, ?_, fun _ => rfl, nofun, nofun, ?_⟩, by decide⟩
  · exact fun _ => ⟨rfl, fun sl h => by
      have h' : some Slot.reset = some sl := h
      cases h'; decide⟩
  · intro f a h
    simp only [List.mem_singleton, BusCall.txWrite.injEq] at h
    obtain ⟨rfl, rfl⟩ := h
    exact ⟨1, 1, [], by decide, by decide, rfl⟩

/-- Reset asserted in the middle of a PING (V-I2). -/
theorem witness_ResetAbandonsCommand :
    let s := { at_ 0x01 .rx with schedule := [.rst true] }
    s.rst = false ∧ s.schedule = .rst true :: [] ∧ s.phase = .rx := by decide

end Sys2Proof.Tests
end

section
/-! Invariants that every step keeps: the ranges of the session table and the reserved register bits (O52), and the
bracketed, bounded history of Transport calls (O56). The first two parts serve any invariant: what one move of an agent
is, and what a block step leaves alone. -/

namespace Sys2Proof.Proofs

open Sys2Proof Sys2Proof.Machine

/-! ### The moves of the agents -/

/-- What one agent does in a step, after its turn is taken off the schedule (R19). -/
inductive Move : State → State → Prop
  | stay {s : State} (hidle : s.rst = true ∨ s.phase = .idle) : Move s s
  | block {s t : State} (hrst : s.rst = false) (hbusy : s.phase ≠ .idle)
      (hexec : exec (decodeCmd s.lat.inp.cmd) s = .next t) : Move s t
  | read (a : Addr) (s : State) : Move s (readTurn a s)
  | write (a : Addr) (d : Byte) (s : State) : Move s (hostWrite a d s)
  | rst (level : Bool) (s : State) : Move s (setReset level s)

theorem move_of_blockTurn {s t : State} (h : blockTurn s = .next t) : Move s t := by
  obtain ⟨hidle, hturn⟩ | ⟨hrst, hbusy, hturn⟩ := blockTurn_cases s
  · obtain rfl : s = t := by simpa [hturn] using h
    exact .stay hidle
  · exact .block hrst hbusy (hturn ▸ h)

/-- A step is a move from the state with what is left of the schedule. -/
theorem move_of_step {s t : State} (h : step s = .next t) : ∃ rest, Move { s with schedule := rest } t := by
  obtain ⟨-, hturn⟩ | ⟨turn, rest, -, ⟨-, hturn⟩ | ⟨a, -, rfl⟩ | ⟨a, d, -, rfl⟩ | ⟨level, -, rfl⟩⟩ := step_cases h
  · exact ⟨s.schedule, move_of_blockTurn hturn⟩
  · exact ⟨rest, move_of_blockTurn hturn⟩
  · exact ⟨rest, .read a _⟩
  · exact ⟨rest, .write a d _⟩
  · exact ⟨rest, .rst level _⟩

/-- A predicate that does not look at the schedule and that every move keeps is kept by every step. -/
theorem step_keeps {P : State → Prop} (hschedule : ∀ s rest, P s → P { s with schedule := rest })
    (hmove : ∀ s t, P s → Move s t → P t) {s t : State} (hs : P s) (h : step s = .next t) : P t := by
  obtain ⟨rest, hm⟩ := move_of_step h
  exact hmove _ _ (hschedule s rest hs) hm

/-- What holds of the state a host write meets, with or without `OVERRUN` set, and of every location's effect, holds
after the write. -/
theorem hostWrite_induct {P : State → Prop} {d : Byte} {s : State} (a : Addr) (hignored : P s)
    (hblocked : P { s with overrun := true }) (heffect : ∀ l b, P (writeLoc l b d s)) : P (hostWrite a d s) := by
  obtain ⟨-, h⟩ | ⟨-, -, -, h⟩ | ⟨-, -, h⟩ := hostWrite_cases a d s <;> rw [h]
  · exact hignored
  · exact hblocked
  · exact heffect _ _

/-- The reset input only follows its level, or puts the block at its reset image (R159). -/
theorem setReset_cases (level : Bool) (s : State) :
    setReset level s = { s with rst := level } ∨
    (level = true ∧ s.rst = false ∧ setReset level s = s.resetImage) := by
  cases level with
  | false => exact .inl rfl
  | true =>
    cases hrst : s.rst with
    | false => exact .inr ⟨rfl, rfl, by simp [setReset, hrst]⟩
    | true => exact .inl (by rw [setReset, if_pos rfl, if_pos hrst, ← hrst])

/-! ### What a block step leaves alone -/

/-- `t` differs from `s` in the phase, the command's latches and the Transport only. -/
def SequencerOnly (s t : State) : Prop :=
  t = { s with
        phase := t.phase, frame := t.frame, acc := t.acc, rx := t.rx, dec := t.dec, pend := t.pend
        txAnswers := t.txAnswers, rxAnswers := t.rxAnswers, busLog := t.busLog, draws := t.draws }

theorem SequencerOnly.inp {s t : State} (h : SequencerOnly s t) : t.inp = s.inp := by
  unfold SequencerOnly at h; rw [h]

theorem SequencerOnly.ctrl {s t : State} (h : SequencerOnly s t) : t.ctrl = s.ctrl := by
  unfold SequencerOnly at h; rw [h]

theorem SequencerOnly.slots {s t : State} (h : SequencerOnly s t) : t.slots = s.slots := by
  unfold SequencerOnly at h; rw [h]

theorem checkPhase_sequencerOnly (p : Plan) (s : State) : SequencerOnly s (checkPhase p s) := by
  obtain ⟨c, d, -, h⟩ | ⟨-, -, h⟩ | ⟨-, -, h⟩ := checkPhase_cases p s <;> rw [h] <;> rfl

theorem decodePhase_sequencerOnly (p : Plan) (s : State) : SequencerOnly s (decodePhase p s) := by
  obtain ⟨c, d, h⟩ := decodePhase_ends p s
  rw [h]; rfl

theorem buildPhase_sequencerOnly (p : Plan) (s : State) : SequencerOnly s (buildPhase p s) := by
  obtain ⟨-, c, d, h⟩ | ⟨f, -, -, h⟩ | ⟨f, -, -, h⟩ := buildPhase_cases p s <;> rw [h] <;> rfl

theorem txPhase_sequencerOnly (p : Plan) (s : State) : SequencerOnly s (txPhase p s) := by
  obtain ⟨-, h⟩ | ⟨a, t, hcall, hend⟩ := txPhase_cases p s
  · rw [h]; rfl
  · obtain ⟨-, rest, n, rfl⟩ := txWrite_spec hcall
    obtain ⟨-, h⟩ | ⟨-, -, h⟩ | ⟨-, -, h⟩ := hend <;> rw [h] <;> rfl

theorem rxPhase_sequencerOnly (p : Plan) (s : State) : SequencerOnly s (rxPhase p s) := by
  obtain ⟨-, h⟩ | ⟨bytes, t, hcall, hend⟩ := rxPhase_cases p s
  · rw [h]; rfl
  · obtain ⟨-, rest, n, rfl⟩ := rxRead_spec hcall
    obtain ⟨-, h⟩ | ⟨-, h⟩ := hend <;> rw [h] <;> rfl

/-- A block step is COMMIT, or changes nothing but the phase, the latches and the Transport (R71, R110). -/
theorem exec_commit_or_sequencerOnly {i : Instr} {s t : State} (h : exec i s = .next t) :
    (s.phase = .commit ∧ t = commitPhase (planOf i s) s) ∨ SequencerOnly s t := by
  rw [exec_eq_runPhase] at h
  obtain ⟨-, rfl⟩ | ⟨-, rfl⟩ | ⟨-, rfl⟩ | ⟨-, rfl⟩ | ⟨-, rfl⟩ | ⟨-, rfl⟩ | hcommit := runPhase_cases h
  · exact .inr rfl
  · exact .inr (checkPhase_sequencerOnly _ s)
  · exact .inr (buildPhase_sequencerOnly _ s)
  · exact .inr (txPhase_sequencerOnly _ s)
  · exact .inr (rxPhase_sequencerOnly _ s)
  · exact .inr (decodePhase_sequencerOnly _ s)
  · exact .inl hcommit

theorem exec_inp {i : Instr} {s t : State} (h : exec i s = .next t) : t.inp = s.inp := by
  obtain ⟨-, rfl⟩ | hseq := exec_commit_or_sequencerOnly h
  · exact commitPhase_inp _ s
  · exact hseq.inp

theorem exec_ctrl {i : Instr} {s t : State} (h : exec i s = .next t) : t.ctrl = s.ctrl := by
  obtain ⟨-, rfl⟩ | hseq := exec_commit_or_sequencerOnly h
  · exact commitPhase_ctrl _ s
  · exact hseq.ctrl

/-- COMMIT keeps the session table, or sets `LAST_ERROR` of the command's slot on a valid decode (R32, R84). -/
theorem commitPhase_slots_cases (p : Plan) (s : State) :
    (commitPhase p s).slots = s.slots ∨
    ∃ k src err params, p.slot = some k ∧ s.dec = some (.valid src err params) ∧
      (commitPhase p s).slots = setLastError k err s.slots := by
  rw [commitPhase_slots]
  unfold commitValid
  split
  · rename_i src err params hdec
    cases hslot : p.slot with
    | none => exact .inl (by simp)
    | some k => exact .inr ⟨k, src, err, params, rfl, by simpa using hdec, by simp⟩
  · exact .inl (by simp)

/-- A block step keeps the session table, or is a COMMIT that sets `LAST_ERROR` of the command's slot. -/
theorem exec_slots_cases {i : Instr} {s t : State} (h : exec i s = .next t) :
    t.slots = s.slots ∨
    ∃ k src err params, (planOf i s).slot = some k ∧ s.phase = .commit ∧ s.dec = some (.valid src err params) ∧
      t.slots = setLastError k err s.slots := by
  obtain ⟨hphase, rfl⟩ | hseq := exec_commit_or_sequencerOnly h
  · obtain hkept | ⟨k, src, err, params, hslot, hdec, hset⟩ := commitPhase_slots_cases (planOf i s) s
    · exact .inl hkept
    · exact .inr ⟨k, src, err, params, hslot, hphase, hdec, hset⟩
  · exact .inl hseq.slots

/-! ### What a host write can do -/

/-- A write to a buffer address changes nothing but the memory. -/
theorem writeLoc_buffer (b : Buffer) (a : Nat) (d : Byte) (s : State) :
    writeLoc (.buffer b) a d s = { s with ram := (writeLoc (.buffer b) a d s).ram } := by
  dsimp only [writeLoc]
  split <;> rfl

theorem writeLoc_slots_cases (l : Loc) (a : Nat) (d : Byte) (s : State) :
    (writeLoc l a d s).slots = s.slots ∨
    ∃ k f, l = .slot k f ∧ (writeLoc l a d s).slots = s.slots.modify k (writeSlotField f d) := by
  cases l
  case slot k f => exact .inr ⟨k, f, rfl, rfl⟩
  case buffer b => exact .inl (by rw [writeLoc_buffer])
  all_goals exact .inl rfl

theorem writeLoc_ctrl_cases (l : Loc) (a : Nat) (d : Byte) (s : State) :
    (writeLoc l a d s).ctrl = s.ctrl ∨ (l = .ctrl ∧ (writeLoc l a d s).ctrl = d &&& 0x01) := by
  cases l
  case ctrl => exact .inr ⟨rfl, rfl⟩
  case buffer b => exact .inl (by rw [writeLoc_buffer])
  all_goals exact .inl rfl

theorem writeLoc_cmdFlags_cases (l : Loc) (a : Nat) (d : Byte) (s : State) :
    (writeLoc l a d s).inp.cmdFlags = s.inp.cmdFlags ∨
    (l = .cmdFlags ∧ (writeLoc l a d s).inp.cmdFlags = d &&& 0x03) := by
  cases l
  case cmdFlags => exact .inr ⟨rfl, rfl⟩
  case buffer b => exact .inl (by rw [writeLoc_buffer])
  all_goals exact .inl rfl

/-! ### The session table keeps its size and its ranges -/

/-- The ranges of a slot's fields (R31). -/
def SlotInRange (sl : Slot) : Prop := sl.id.toNat ≤ 253 ∧ sl.srl.toNat ≤ 2 ∧ sl.rdelay.toNat ≤ 254

theorem slotsLegal_iff (s : State) :
    SlotsLegal s ↔ 1 ≤ s.nsess ∧ s.nsess ≤ 16 ∧ ∀ sl ∈ s.slots, SlotInRange sl := Iff.rfl

/-- A session table of the same size, in range where the old one was. -/
def TableKept (old new : List Slot) : Prop :=
  new.length = old.length ∧ ((∀ sl ∈ old, SlotInRange sl) → ∀ sl ∈ new, SlotInRange sl)

theorem TableKept.of_eq {old new : List Slot} (h : new = old) : TableKept old new := h ▸ ⟨rfl, id⟩

theorem TableKept.modify {f : Slot → Slot} (hf : ∀ sl, SlotInRange sl → SlotInRange (f sl)) (slots : List Slot)
    (k : Nat) : TableKept slots (slots.modify k f) := by
  refine ⟨List.length_modify .., fun hold sl hsl => ?_⟩
  obtain ⟨j, hj⟩ := List.mem_iff_getElem?.mp hsl
  rw [List.getElem?_modify] at hj
  obtain ⟨old, hget, rfl⟩ := Option.map_eq_some_iff.mp hj
  have hrange : SlotInRange old := hold old (List.mem_of_getElem? hget)
  split
  · exact hf old hrange
  · exact hrange

/-- The host cannot store an illegal value in a slot (R31). -/
theorem writeSlotField_inRange (f : SlotField) (d : Byte) {sl : Slot} (h : SlotInRange sl) :
    SlotInRange (writeSlotField f d sl) := by
  obtain ⟨hid, hsrl, hrdelay⟩ := h
  cases f <;> dsimp only [writeSlotField]
  case id => split <;> exact ⟨‹_›, hsrl, hrdelay⟩
  case srl => split <;> exact ⟨hid, ‹_›, hrdelay⟩
  case rdelay => split <;> exact ⟨hid, hsrl, ‹_›⟩
  case lastError => exact ⟨hid, hsrl, hrdelay⟩

theorem setLastError_tableKept (k : Nat) (err : Byte) (slots : List Slot) :
    TableKept slots (setLastError k err slots) :=
  .modify (f := fun sl => { sl with lastError := err }) (fun _ hrange => hrange) slots k

theorem writeLoc_tableKept (l : Loc) (a : Nat) (d : Byte) (s : State) :
    TableKept s.slots (writeLoc l a d s).slots := by
  obtain h | ⟨k, f, -, h⟩ := writeLoc_slots_cases l a d s
  · exact .of_eq h
  · exact h ▸ .modify (fun _ => writeSlotField_inRange f d) s.slots k

theorem resetImage_tableKept (s : State) : TableKept s.slots s.resetImage.slots := by
  refine ⟨List.length_replicate, fun _ sl hsl => ?_⟩
  rw [List.eq_of_mem_replicate hsl]
  exact ⟨by decide, by decide, by decide⟩

theorem setReset_tableKept (level : Bool) (s : State) : TableKept s.slots (setReset level s).slots := by
  obtain h | ⟨-, -, h⟩ := setReset_cases level s
  · exact .of_eq (by rw [h])
  · exact h ▸ resetImage_tableKept s

theorem exec_tableKept {i : Instr} {s t : State} (h : exec i s = .next t) : TableKept s.slots t.slots := by
  obtain hkept | ⟨k, src, err, params, -, -, -, hset⟩ := exec_slots_cases h
  · exact .of_eq hkept
  · exact hset ▸ setLastError_tableKept k err s.slots

theorem Move.tableKept {s t : State} (h : Move s t) : TableKept s.slots t.slots := by
  cases h with
  | stay _ => exact .of_eq rfl
  | block _ _ hexec => exact exec_tableKept hexec
  | read a => exact .of_eq rfl
  | write a d =>
    exact hostWrite_induct (P := fun u => TableKept s.slots u.slots) a (.of_eq rfl) (.of_eq rfl)
      fun l b => writeLoc_tableKept l b d s
  | rst level => exact setReset_tableKept level s

theorem Move.slotsLegal {s t : State} (h : Move s t) (hs : SlotsLegal s) : SlotsLegal t ∧ t.nsess = s.nsess := by
  obtain ⟨hlength, hranges⟩ := h.tableKept
  obtain ⟨hlow, hhigh, hold⟩ := (slotsLegal_iff s).mp hs
  have hnsess : t.nsess = s.nsess := hlength
  exact ⟨(slotsLegal_iff t).mpr ⟨hnsess ▸ hlow, hnsess ▸ hhigh, hranges hold⟩, hnsess⟩

/-! ### The reserved bits stay 0 -/

theorem writeLoc_reservedBitsZero (l : Loc) (a : Nat) (d : Byte) {s : State} (hs : ReservedBitsZero s) :
    ReservedBitsZero (writeLoc l a d s) := by
  obtain ⟨hctrl, hflags⟩ := hs
  constructor
  · obtain h | ⟨-, h⟩ := writeLoc_ctrl_cases l a d s
    · rw [h, hctrl]
    · simp [h, BitVec.and_assoc]
  · obtain h | ⟨-, h⟩ := writeLoc_cmdFlags_cases l a d s
    · rw [h, hflags]
    · simp [h, BitVec.and_assoc]

theorem resetImage_reservedBitsZero (s : State) : ReservedBitsZero s.resetImage := by
  constructor
  · show (0x00 : Byte) &&& 0xFE = 0; decide
  · show (0x00 : Byte) &&& 0xFC = 0; decide

theorem Move.reservedBitsZero {s t : State} (hs : ReservedBitsZero s) (h : Move s t) : ReservedBitsZero t := by
  cases h with
  | stay _ => exact hs
  | block _ _ hexec =>
    obtain ⟨hctrl, hflags⟩ := hs
    exact ⟨by rw [exec_ctrl hexec, hctrl], by rw [exec_inp hexec, hflags]⟩
  | read a => exact hs
  | write a d => exact hostWrite_induct a hs hs fun l b => writeLoc_reservedBitsZero l b d hs
  | rst level =>
    obtain h | ⟨-, -, h⟩ := setReset_cases level s
    · exact h ▸ hs
    · exact h ▸ resetImage_reservedBitsZero s

/-- Settles O52: both parts by the moves of the agents; only a host write of a slot field, COMMIT's `LAST_ERROR` and
reset touch the session table, and only host writes and reset touch `CTRL` and `CMD_FLAGS`. -/
theorem registerRangesStay : Obligations.RegisterRangesStay := by
  constructor
  · intro s t hs
    refine step_keeps (P := fun u => SlotsLegal u ∧ u.nsess = s.nsess) (fun _ _ hu => hu) ?_ ⟨hs, rfl⟩
    rintro u v ⟨hu, hnsess⟩ hm
    obtain ⟨hv, hsame⟩ := hm.slotsLegal hu
    exact ⟨hv, hsame.trans hnsess⟩
  · intro s t hs
    exact step_keeps (fun _ _ hu => hu) (fun _ _ => Move.reservedBitsZero) hs

/-! ### The Transport calls of a move -/

/-- The Transport call of a move from `s` to `t`: none, and then RX is not entered; or the `TxWrite` of TX; or the
`RxRead` of RX, which ends RX (R79, R107, R108). -/
inductive CallMade (s t : State) : Prop
  | none (hlog : t.busLog = s.busLog) (hrx : t.phase = .rx → s.phase = .rx)
  | txWrite (f : List Byte) (a : Nat) (htx : s.phase = .tx) (hbound : a ≤ f.length)
      (hlog : t.busLog = s.busLog ++ [.txWrite f a])
  | rxRead (k : Nat) (bytes : List Byte) (hrx : s.phase = .rx) (hbound : bytes.length ≤ k) (hleft : t.phase ≠ .rx)
      (hlog : t.busLog = s.busLog ++ [.rxRead k bytes])

theorem txPhase_callMade (p : Plan) {s : State} (htx : s.phase = .tx) : CallMade s (txPhase p s) := by
  obtain ⟨-, h⟩ | ⟨a, t, hcall, hend⟩ := txPhase_cases p s
  · exact .none (by rw [h]) (by rw [h]; exact id)
  · obtain ⟨hbound, rest, n, rfl⟩ := txWrite_spec hcall
    refine .txWrite (s.frame.getD []) a htx hbound ?_
    obtain ⟨-, h⟩ | ⟨-, -, h⟩ | ⟨-, -, h⟩ := hend <;> rw [h] <;> rfl

theorem rxPhase_callMade (p : Plan) {s : State} (hrx : s.phase = .rx) : CallMade s (rxPhase p s) := by
  obtain ⟨-, h⟩ | ⟨bytes, t, hcall, hend⟩ := rxPhase_cases p s
  · exact .none (by rw [h]) (by rw [h]; exact id)
  · obtain ⟨hbound, rest, n, rfl⟩ := rxRead_spec hcall
    obtain ⟨-, h⟩ | ⟨-, h⟩ := hend <;> rw [h]
    · exact .rxRead _ bytes hrx hbound nofun rfl
    · exact .rxRead _ bytes hrx hbound nofun rfl

theorem checkPhase_callMade (p : Plan) (s : State) : CallMade s (checkPhase p s) := by
  obtain ⟨c, d, -, h⟩ | ⟨-, -, h⟩ | ⟨-, -, h⟩ := checkPhase_cases p s <;> rw [h] <;> exact .none rfl nofun

theorem decodePhase_callMade (p : Plan) (s : State) : CallMade s (decodePhase p s) := by
  obtain ⟨c, d, h⟩ := decodePhase_ends p s
  exact h ▸ .none rfl nofun

theorem buildPhase_callMade (p : Plan) (s : State) : CallMade s (buildPhase p s) := by
  obtain ⟨-, c, d, h⟩ | ⟨f, -, -, h⟩ | ⟨f, -, -, h⟩ := buildPhase_cases p s <;> rw [h] <;> exact .none rfl nofun

theorem exec_callMade {i : Instr} {s t : State} (h : exec i s = .next t) : CallMade s t := by
  rw [exec_eq_runPhase] at h
  obtain ⟨-, rfl⟩ | ⟨-, rfl⟩ | ⟨-, rfl⟩ | ⟨htx, rfl⟩ | ⟨hrx, rfl⟩ | ⟨-, rfl⟩ | ⟨-, rfl⟩ := runPhase_cases h
  · exact .none rfl id
  · exact checkPhase_callMade _ s
  · exact buildPhase_callMade _ s
  · exact txPhase_callMade _ htx
  · exact rxPhase_callMade _ hrx
  · exact decodePhase_callMade _ s
  · exact .none (commitPhase_busLog _ s) nofun

/-- A host write makes no Transport call; the only phase it can enter is CHECK (R69). -/
theorem writeLoc_callMade (l : Loc) (a : Nat) (d : Byte) (s : State) : CallMade s (writeLoc l a d s) := by
  cases l
  case cmd => exact .none rfl nofun
  case buffer b => rw [writeLoc_buffer]; exact .none rfl id
  all_goals exact .none rfl id

theorem Move.callMade {s t : State} (h : Move s t) : CallMade s t := by
  cases h with
  | stay _ => exact .none rfl id
  | block _ _ hexec => exact exec_callMade hexec
  | read a => exact .none rfl id
  | write a d => exact hostWrite_induct a (.none rfl id) (.none rfl id) fun l b => writeLoc_callMade l b d s
  | rst level =>
    obtain h | ⟨-, -, h⟩ := setReset_cases level s
    · exact h ▸ .none rfl id
    · exact h ▸ .none rfl nofun

/-! ### The history stays bracketed and bounded -/

/-- A history is bracketed when it is bracketed up to a `TxWrite` and from it on. -/
theorem callsBracketed_append_txWrite (b : Bool) (l l' : List BusCall) (f : List Byte) (a : Nat) :
    callsBracketed b (l ++ .txWrite f a :: l') = (callsBracketed b l && callsBracketed true l') := by
  induction l generalizing b with
  | nil => cases b <;> rfl
  | cons c l ih =>
    cases c with
    | txWrite => simp [callsBracketed, ih]
    | rxRead => cases b <;> simp [callsBracketed, ih]

theorem CallMade.callsInOrder {s t : State} (h : CallMade s t) (hs : CallsInOrder s) : CallsInOrder t := by
  obtain ⟨hbracketed, hlast⟩ := hs
  cases h with
  | none hlog hrx => exact ⟨hlog ▸ hbracketed, fun hphase => hlog ▸ hlast (hrx hphase)⟩
  | txWrite f a _ _ hlog =>
    refine ⟨?_, fun _ => ⟨s.busLog, f, a, hlog⟩⟩
    rw [hlog, callsBracketed_append_txWrite, hbracketed]
    rfl
  | rxRead k bytes hrx _ hleft hlog =>
    refine ⟨?_, fun hphase => absurd hphase hleft⟩
    obtain ⟨l, f, a, hold⟩ := hlast hrx
    rw [hold, callsBracketed_append_txWrite] at hbracketed
    rw [hlog, hold, List.append_assoc, List.singleton_append, callsBracketed_append_txWrite]
    exact hbracketed

theorem CallMade.callsBounded {s t : State} (h : CallMade s t) (hs : ∀ c ∈ s.busLog, CallBounded c) :
    ∀ c ∈ t.busLog, CallBounded c := by
  cases h with
  | none hlog _ => exact hlog ▸ hs
  | txWrite f a _ hbound hlog =>
    rw [hlog]; exact List.forall_mem_append.mpr ⟨hs, List.forall_mem_singleton.mpr hbound⟩
  | rxRead k bytes _ hbound _ hlog =>
    rw [hlog]; exact List.forall_mem_append.mpr ⟨hs, List.forall_mem_singleton.mpr hbound⟩

/-- Settles O56: a move makes at most one Transport call, and an `RxRead` only in RX, where the last call was the
command's `TxWrite`. -/
theorem busCallsStayInOrder : Obligations.BusCallsStayInOrder := by
  intro s t horder hbounded
  refine step_keeps (P := fun u => CallsInOrder u ∧ ∀ c ∈ u.busLog, CallBounded c) (fun _ _ hu => hu) ?_
    ⟨horder, hbounded⟩
  rintro u v ⟨hu, hb⟩ hm
  exact ⟨hm.callMade.callsInOrder hu, hm.callMade.callsBounded hb⟩

end Sys2Proof.Proofs
end

section
/-! The command byte: `encode` and `decodeCmd` are inverse to each other (O1, O2). -/

namespace Sys2Proof.Proofs

open Sys2Proof Sys2Proof.Machine

/-! ### The opcode map -/

theorem commandOf_opcode_slot (i : Instr) : commandOf (opcode i) i.slot = i := by cases i <;> rfl

@[simp] theorem slot_commandOf (op slot : Nat) : (commandOf op slot).slot = slot := by
  unfold commandOf
  split <;> rfl

theorem opcode_commandOf {op : Nat} (slot : Nat) (h : op < 16) : opcode (commandOf op slot) = op := by
  interval_cases op <;> rfl

/-- The fields of an encoded byte, for every well-formed command (R95). -/
theorem encodedFields (i : Instr) : Laws.EncodedFields.Statement i := fun hwf =>
  Laws.EncodedFields.fields_of_parts (of_decide_eq_true hwf) (Laws.EncodedFields.opcode_lt i)

/-! ### Decoding and encoding -/

theorem decodeCmd_encode {i : Instr} (hwf : i.wf = true) : decodeCmd (encode i) = i := by
  obtain ⟨hop, hslot⟩ := encodedFields i hwf
  rw [decodeCmd, hop, hslot, commandOf_opcode_slot]

theorem decodeCmd_wf (b : Byte) : (decodeCmd b).wf = true := by
  have hb : b.toNat < 256 := b.isLt
  rw [Instr.wf, decodeCmd, slot_commandOf, decide_eq_true_eq]
  omega

theorem encode_decodeCmd (b : Byte) : encode (decodeCmd b) = b := by
  have hb : b.toNat < 256 := b.isLt
  have hop : b.toNat % 16 < 16 := Nat.mod_lt _ (by decide)
  rw [encode, decodeCmd, slot_commandOf, opcode_commandOf _ hop, Nat.div_add_mod', BitVec.ofNat_toNat,
    BitVec.setWidth_eq]

/-- Settles O1: opcode and slot are read back from the two halves of the byte, and they make the command. -/
theorem decodeOfEncodeIsInstr : Obligations.DecodeOfEncodeIsInstr := by
  intro i rest hwf
  rw [decode, decodeCmd_encode hwf]

/-- Settles O2: every half of a byte is below 16, so the decoded command is well-formed and keeps both halves. -/
theorem everyByteDecodesAndReencodes : Obligations.EveryByteDecodesAndReencodes :=
  fun b => ⟨decodeCmd_wf b, encode_decodeCmd b⟩

end Sys2Proof.Proofs
end

section
/-! Invariants of memory and latches that every step keeps: the canonical memory (O51), the snapshot (O53), the latches
as the phase says (O55), the held reset (O54), and that the reset state meets all of them (O58). -/

namespace Sys2Proof.Proofs

open Sys2Proof Sys2Proof.Machine

/-! ### What a block step leaves alone, continued -/

theorem SequencerOnly.ram {s t : State} (h : SequencerOnly s t) : t.ram = s.ram := by
  unfold SequencerOnly at h; rw [h]

theorem SequencerOnly.lat {s t : State} (h : SequencerOnly s t) : t.lat = s.lat := by
  unfold SequencerOnly at h; rw [h]

theorem SequencerOnly.rst {s t : State} (h : SequencerOnly s t) : t.rst = s.rst := by
  unfold SequencerOnly at h; rw [h]

theorem SequencerOnly.schedule {s t : State} (h : SequencerOnly s t) : t.schedule = s.schedule := by
  unfold SequencerOnly at h; rw [h]

theorem exec_lat {i : Instr} {s t : State} (h : exec i s = .next t) : t.lat = s.lat := by
  obtain ⟨-, rfl⟩ | hseq := exec_commit_or_sequencerOnly h
  · exact commitPhase_lat _ s
  · exact hseq.lat

theorem exec_rst {i : Instr} {s t : State} (h : exec i s = .next t) : t.rst = s.rst := by
  obtain ⟨-, rfl⟩ | hseq := exec_commit_or_sequencerOnly h
  · exact commitPhase_rst _ s
  · exact hseq.rst

theorem exec_schedule {i : Instr} {s t : State} (h : exec i s = .next t) : t.schedule = s.schedule := by
  obtain ⟨-, rfl⟩ | hseq := exec_commit_or_sequencerOnly h
  · exact commitPhase_schedule _ s
  · exact hseq.schedule

/-! ### The memory stays canonical -/

theorem commitFrame_ram_wf {s : State} (hs : Memory.wf s.ram = true) : Memory.wf (commitFrame s).ram = true := by
  unfold commitFrame
  split
  · exact wf_storeBuffer .txframe _ hs
  · exact hs

theorem commitRx_ram_wf {s : State} (hs : Memory.wf s.ram = true) : Memory.wf (commitRx s).ram = true := by
  unfold commitRx
  split
  · exact wf_storeBuffer .rxframe _ hs
  · exact hs

theorem commitValid_ram_wf (p : Plan) {s : State} (hs : Memory.wf s.ram = true) :
    Memory.wf (commitValid p s).ram = true := by
  unfold commitValid
  split
  · exact wf_storeBuffer .rxdata _ hs
  · exact hs

theorem exec_ram_wf {i : Instr} {s t : State} (h : exec i s = .next t) (hs : Memory.wf s.ram = true) :
    Memory.wf t.ram = true := by
  obtain ⟨-, rfl⟩ | hseq := exec_commit_or_sequencerOnly h
  · rw [commitPhase_ram]
    exact commitValid_ram_wf _ (commitRx_ram_wf (commitFrame_ram_wf hs))
  · rw [hseq.ram]
    exact hs

/-- Below the session table there are registers only (R60). -/
theorem registerAt_ne_buffer (a : Nat) (b : Buffer) : registerAt a ≠ .buffer b := by
  unfold registerAt
  split <;> nofun

/-- The buffers stand from 0x100 on (R60). -/
theorem buffer_low_of_locate {n a : Nat} {b : Buffer} (h : locate n a = .buffer b) : 0x100 ≤ a := by
  by_contra hlow
  unfold locate at h
  split at h
  · exact registerAt_ne_buffer a b h
  · split at h
    · split at h <;> cases h
    · rw [if_pos (by omega)] at h
      cases h

theorem writeLoc_ram_wf {l : Loc} {a : Nat} (d : Byte) {s : State} (hlow : ∀ b, l = .buffer b → 0x100 ≤ a)
    (hhigh : a < 0x800) (hs : Memory.wf s.ram = true) : Memory.wf (writeLoc l a d s).ram = true := by
  cases l
  case buffer b =>
    dsimp only [writeLoc]
    split
    · exact wf_write d (hlow b rfl) hhigh hs
    · exact hs
  all_goals exact hs

theorem hostWrite_ram_wf (a : Addr) (d : Byte) {s : State} (hs : Memory.wf s.ram = true) :
    Memory.wf (hostWrite a d s).ram = true := by
  obtain ⟨-, h⟩ | ⟨-, -, -, h⟩ | ⟨-, -, h⟩ := hostWrite_cases a d s <;> rw [h]
  · exact hs
  · exact hs
  · exact writeLoc_ram_wf d (fun b => buffer_low_of_locate) a.isLt hs

theorem Move.ram_wf {s t : State} (hs : Memory.wf s.ram = true) (h : Move s t) : Memory.wf t.ram = true := by
  cases h with
  | stay _ => exact hs
  | block _ _ hexec => exact exec_ram_wf hexec hs
  | read a => exact hs
  | write a d => exact hostWrite_ram_wf a d hs
  | rst level =>
    obtain h | ⟨-, -, h⟩ := setReset_cases level s
    · exact h ▸ hs
    · exact h ▸ rfl

/-- Settles O51: memory is written by COMMIT, which stores into buffers, and by a host write at a buffer address. -/
theorem memoryStaysCanonical : Obligations.MemoryStaysCanonical := fun _ _ hs hstep =>
  step_keeps (P := fun u => Memory.wf u.ram = true) (fun _ _ hu => hu) (fun _ _ => Move.ram_wf) hs hstep

/-! ### What a host write does to a running command -/

/-- `t` is `s` but for the flags and `CTRL`, which the host may write at any time (R70). -/
def FlagsOnly (s t : State) : Prop :=
  t = { s with done := t.done, overrun := t.overrun, rsvdErr := t.rsvdErr, ctrl := t.ctrl }

theorem FlagsOnly.inp {s t : State} (h : FlagsOnly s t) : t.inp = s.inp := by
  unfold FlagsOnly at h; rw [h]

theorem FlagsOnly.lat {s t : State} (h : FlagsOnly s t) : t.lat = s.lat := by
  unfold FlagsOnly at h; rw [h]

theorem FlagsOnly.slots {s t : State} (h : FlagsOnly s t) : t.slots = s.slots := by
  unfold FlagsOnly at h; rw [h]

/-- The host cannot write `LAST_ERROR` (R61). -/
theorem writeSlotField_lastError (d : Byte) : writeSlotField .lastError d = id := rfl

/-- A write to a location that is not blocked while busy reaches no input of a command (R70). -/
theorem writeLoc_flagsOnly {l : Loc} (a : Nat) (d : Byte) (s : State) (h : blockedWhileBusy l = false) :
    FlagsOnly s (writeLoc l a d s) := by
  cases l
  case slot k f =>
    cases f
    case lastError =>
      simp only [FlagsOnly, writeLoc, writeSlotField_lastError, List.modify_id]
    all_goals cases h
  case buffer b =>
    have hb : bufferHostWritable b = false := h
    simp [FlagsOnly, writeLoc, hb]
  all_goals first | rfl | cases h

theorem hostWrite_flagsOnly {s : State} (a : Addr) (d : Byte) (hbusy : s.phase ≠ .idle) :
    FlagsOnly s (hostWrite a d s) := by
  obtain ⟨-, h⟩ | ⟨-, -, -, h⟩ | ⟨-, hfree, h⟩ := hostWrite_cases a d s <;> rw [h]
  · rfl
  · rfl
  · have hbusy' : s.busy = true := by simpa [State.busy] using hbusy
    exact writeLoc_flagsOnly _ d s (hfree.resolve_left (by simp [hbusy']))

/-- `t` is in the phase of `s`, with the same latches but the snapshot. -/
def LatchesKept (s t : State) : Prop :=
  t.phase = s.phase ∧ t.frame = s.frame ∧ t.acc = s.acc ∧ t.rx = s.rx ∧ t.dec = s.dec ∧ t.pend = s.pend

theorem FlagsOnly.latchesKept {s t : State} (h : FlagsOnly s t) : LatchesKept s t := by
  unfold FlagsOnly at h; rw [h]; exact ⟨rfl, rfl, rfl, rfl, rfl, rfl⟩

/-- The only location whose write touches phase and latches is `CMD` (R69). -/
theorem writeLoc_start_or_latchesKept (l : Loc) (a : Nat) (d : Byte) (s : State) :
    writeLoc l a d s = startCommand d s ∨ LatchesKept s (writeLoc l a d s) := by
  cases l
  case cmd => exact .inl rfl
  case buffer b => rw [writeLoc_buffer]; exact .inr ⟨rfl, rfl, rfl, rfl, rfl, rfl⟩
  all_goals exact .inr ⟨rfl, rfl, rfl, rfl, rfl, rfl⟩

/-- A host write starts a command, in IDLE, or leaves phase and latches as they are. -/
theorem hostWrite_start_or_latchesKept (a : Addr) (d : Byte) (s : State) :
    (s.phase = .idle ∧ hostWrite a d s = startCommand d s) ∨ LatchesKept s (hostWrite a d s) := by
  by_cases hidle : s.phase = .idle
  · refine (hostWrite_induct (P := fun u => u = startCommand d s ∨ LatchesKept s u) a ?_ ?_ ?_).imp_left
      fun h => ⟨hidle, h⟩
    · exact .inr ⟨rfl, rfl, rfl, rfl, rfl, rfl⟩
    · exact .inr ⟨rfl, rfl, rfl, rfl, rfl, rfl⟩
    · exact fun l b => writeLoc_start_or_latchesKept l b d s
  · exact .inr (hostWrite_flagsOnly a d hidle).latchesKept

/-! ### The snapshot stays current -/

/-- Whatever settings a slot of `new` has, it had them in `old`. -/
def SettingsKept (old new : List Slot) : Prop :=
  ∀ (j : Nat) (sl : Slot), new[j]? = some sl → ∃ sl', old[j]? = some sl' ∧ sl'.id = sl.id ∧ sl'.srl = sl.srl

theorem setLastError_settingsKept (k : Nat) (err : Byte) (slots : List Slot) :
    SettingsKept slots (setLastError k err slots) := by
  intro j sl hsl
  rw [setLastError, List.getElem?_modify] at hsl
  obtain ⟨old, hold, rfl⟩ := Option.map_eq_some_iff.mp hsl
  refine ⟨old, hold, ?_⟩
  split <;> exact ⟨rfl, rfl⟩

theorem exec_settingsKept {i : Instr} {s t : State} (h : exec i s = .next t) : SettingsKept s.slots t.slots := by
  obtain hkept | ⟨k, src, err, params, -, -, -, hset⟩ := exec_slots_cases h
  · exact hkept ▸ fun j sl hsl => ⟨sl, hsl, rfl, rfl⟩
  · exact hset ▸ setLastError_settingsKept k err s.slots

/-- A running command's snapshot stays current when inputs, snapshot and settings stay. -/
theorem latchCurrent_of_kept {s t : State} (hs : LatchCurrent s) (hbusy : s.phase ≠ .idle) (hlat : t.lat = s.lat)
    (hinp : t.inp = s.inp) (hslots : SettingsKept s.slots t.slots) : LatchCurrent t := by
  intro _
  obtain ⟨hcurrent, hslot⟩ := hs hbusy
  refine ⟨by rw [hlat, hinp, hcurrent], fun sl hsl => ?_⟩
  rw [hinp] at hsl
  obtain ⟨sl', hold, hid, hsrl⟩ := hslots _ sl hsl
  obtain ⟨hlatId, hlatSrl⟩ := hslot sl' hold
  exact ⟨by rw [hlat, hlatId, hid], by rw [hlat, hlatSrl, hsrl]⟩

/-- The snapshot holds the settings of the slot its `CMD` selects (R42). -/
theorem snapshot_slot {s : State} {sl : Slot} (h : s.slots[s.inp.cmd.toNat / 16]? = some sl) :
    (snapshot s).slotId = sl.id ∧ (snapshot s).slotSrl = sl.srl := by
  simp [snapshot, selectedSlot, h]

theorem startCommand_latchCurrent (d : Byte) (s : State) : LatchCurrent (startCommand d s) :=
  fun _ => ⟨rfl, fun _ hsl => snapshot_slot hsl⟩

theorem hostWrite_latchCurrent (a : Addr) (d : Byte) {s : State} (hs : LatchCurrent s) :
    LatchCurrent (hostWrite a d s) := by
  by_cases hidle : s.phase = .idle
  · obtain ⟨-, h⟩ | ⟨hphase, -⟩ := hostWrite_start_or_latchesKept a d s
    · exact h ▸ startCommand_latchCurrent d s
    · exact fun hbusy => absurd (hphase.trans hidle) hbusy
  · have hflags := hostWrite_flagsOnly a d hidle
    refine latchCurrent_of_kept hs hidle hflags.lat hflags.inp ?_
    exact hflags.slots ▸ fun j sl hsl => ⟨sl, hsl, rfl, rfl⟩

theorem Move.latchCurrent {s t : State} (hs : LatchCurrent s) (h : Move s t) : LatchCurrent t := by
  cases h with
  | stay _ => exact hs
  | block _ hbusy hexec =>
    exact latchCurrent_of_kept hs hbusy (exec_lat hexec) (exec_inp hexec) (exec_settingsKept hexec)
  | read a => exact hs
  | write a d => exact hostWrite_latchCurrent a d hs
  | rst level =>
    obtain h | ⟨-, -, h⟩ := setReset_cases level s
    · exact h ▸ hs
    · exact h ▸ fun hbusy => absurd rfl hbusy

/-- Settles O53: a start takes the snapshot, and while a command runs neither the block nor the host touches an input
register or a slot's settings. -/
theorem latchStaysCurrent : Obligations.LatchStaysCurrent := fun _ _ hs hstep =>
  step_keeps (fun _ _ hu => hu) (fun _ _ => Move.latchCurrent) hs hstep

/-! ### The latches stay as the phase says -/

theorem LatchesKept.latchesFit {s t : State} (h : LatchesKept s t) (hs : LatchesFit s) : LatchesFit t := by
  obtain ⟨hphase, hframe, hacc, hrx, hdec, hpend⟩ := h
  unfold LatchesFit at hs ⊢
  rw [hphase, hframe, hacc, hrx, hdec, hpend]
  exact hs

/-- Ending a command fits when a received reply follows a write and a write follows a frame (R25). -/
theorem endWith_latchesFit {s : State} (c : OutCode) (d : Detail) (hacc : s.acc.isSome → s.frame.isSome)
    (hrx : s.rx.isSome → s.acc.isSome) : LatchesFit (endWith c d s) := ⟨rfl, hacc, hrx⟩

theorem checkPhase_latchesFit (p : Plan) {s : State} (hphase : s.phase = .check) (hs : LatchesFit s) :
    LatchesFit (checkPhase p s) := by
  simp only [LatchesFit, hphase] at hs
  have hs' := hs
  obtain ⟨-, hacc, hrx, -, -⟩ := hs'
  obtain ⟨c, d, -, h⟩ | ⟨-, -, h⟩ | ⟨-, -, h⟩ := checkPhase_cases p s <;> rw [h]
  · exact endWith_latchesFit c d (by simp [hacc]) (by simp [hrx])
  · exact endWith_latchesFit .ok .zero (by simp [hacc]) (by simp [hrx])
  · exact hs

theorem buildPhase_latchesFit (p : Plan) {s : State} (hphase : s.phase = .build) (hs : LatchesFit s) :
    LatchesFit (buildPhase p s) := by
  simp only [LatchesFit, hphase] at hs
  obtain ⟨-, hacc, hrx, hdec, hpend⟩ := hs
  obtain ⟨-, c, d, h⟩ | ⟨f, -, -, h⟩ | ⟨f, -, -, h⟩ := buildPhase_cases p s <;> rw [h]
  · exact endWith_latchesFit c d (by simp [hacc]) (by simp [hrx])
  · exact ⟨rfl, hacc, hrx, hdec, hpend⟩
  · exact endWith_latchesFit .ok .zero (fun _ => rfl) (by simp [hrx])

theorem txPhase_latchesFit (p : Plan) {s : State} (hphase : s.phase = .tx) (hs : LatchesFit s) :
    LatchesFit (txPhase p s) := by
  obtain ⟨-, h⟩ | ⟨a, t, hcall, hend⟩ := txPhase_cases p s
  · rw [h]; exact hs
  · simp only [LatchesFit, hphase] at hs
    obtain ⟨hframe, -, hrx, hdec, hpend⟩ := hs
    obtain ⟨f, hf⟩ := Option.isSome_iff_exists.mp hframe
    obtain ⟨-, rest, n, rfl⟩ := txWrite_spec hcall
    obtain ⟨-, h⟩ | ⟨ha, -, h⟩ | ⟨-, -, h⟩ := hend <;> rw [h]
    · exact endWith_latchesFit .txIncomplete .zero (fun _ => hframe) (fun _ => rfl)
    · rw [hf, Option.getD_some] at ha
      exact ⟨⟨f, hf, congrArg some ha⟩, hrx, hdec, hpend⟩
    · exact endWith_latchesFit .ok .zero (fun _ => hframe) (fun _ => rfl)

theorem rxPhase_latchesFit (p : Plan) {s : State} (hphase : s.phase = .rx) (hs : LatchesFit s) :
    LatchesFit (rxPhase p s) := by
  obtain ⟨-, h⟩ | ⟨bytes, t, hcall, hend⟩ := rxPhase_cases p s
  · rw [h]; exact hs
  · simp only [LatchesFit, hphase] at hs
    obtain ⟨⟨f, hf, hacc⟩, -, hdec, hpend⟩ := hs
    obtain ⟨-, rest, n, rfl⟩ := rxRead_spec hcall
    obtain ⟨-, h⟩ | ⟨hne, h⟩ := hend <;> rw [h]
    · exact endWith_latchesFit .noReply .zero (fun _ => by simp [hf]) (fun _ => by simp [hacc])
    · exact ⟨⟨f, bytes, hf, hacc, rfl, hne⟩, hdec, hpend⟩

theorem decodePhase_latchesFit (p : Plan) {s : State} (hphase : s.phase = .decode) (hs : LatchesFit s) :
    LatchesFit (decodePhase p s) := by
  simp only [LatchesFit, hphase] at hs
  obtain ⟨⟨f, bytes, hf, hacc, -, -⟩, -, -⟩ := hs
  obtain ⟨c, d, h⟩ := decodePhase_ends p s
  rw [h]
  exact endWith_latchesFit c d (fun _ => by simp [hf]) (fun _ => by simp [hacc])

theorem exec_latchesFit {i : Instr} {s t : State} (h : exec i s = .next t) (hs : LatchesFit s) : LatchesFit t := by
  rw [exec_eq_runPhase] at h
  obtain ⟨-, rfl⟩ | ⟨hp, rfl⟩ | ⟨hp, rfl⟩ | ⟨hp, rfl⟩ | ⟨hp, rfl⟩ | ⟨hp, rfl⟩ | ⟨-, rfl⟩ := runPhase_cases h
  · exact hs
  · exact checkPhase_latchesFit _ hp hs
  · exact buildPhase_latchesFit _ hp hs
  · exact txPhase_latchesFit _ hp hs
  · exact rxPhase_latchesFit _ hp hs
  · exact decodePhase_latchesFit _ hp hs
  · exact True.intro

theorem Move.latchesFit {s t : State} (hs : LatchesFit s) (h : Move s t) : LatchesFit t := by
  cases h with
  | stay _ => exact hs
  | block _ _ hexec => exact exec_latchesFit hexec hs
  | read a => exact hs
  | write a d =>
    obtain ⟨-, h⟩ | hkept := hostWrite_start_or_latchesKept a d s
    · exact h ▸ ⟨rfl, rfl, rfl, rfl, rfl⟩
    · exact hkept.latchesFit hs
  | rst level =>
    obtain h | ⟨-, -, h⟩ := setReset_cases level s
    · exact h ▸ hs
    · exact h ▸ True.intro

/-! ### A step answers a next state -/

/-- Phase encoding 7 is the only phase in which a command stops (log 12). -/
theorem exec_next (i : Instr) {s : State} (h : s.phase ≠ .unused) : ∃ t, exec i s = .next t := by
  rw [exec_eq_runPhase]
  unfold runPhase
  split
  case h_8 hunused => exact absurd hunused h
  all_goals exact ⟨_, rfl⟩

theorem blockTurn_next {s : State} (h : s.phase ≠ .unused) : ∃ t, blockTurn s = .next t := by
  obtain ⟨-, hturn⟩ | ⟨-, -, hturn⟩ := blockTurn_cases s
  · exact ⟨s, hturn⟩
  · exact hturn ▸ exec_next _ h

theorem step_next {s : State} (h : s.phase ≠ .unused) : ∃ t, step s = .next t := by
  unfold step
  split
  case h_1 => exact blockTurn_next h
  case h_2 rest _ => exact blockTurn_next (s := { s with schedule := rest }) h
  all_goals exact ⟨_, rfl⟩

theorem phase_ne_unused_of_latchesFit {s : State} (hs : LatchesFit s) : s.phase ≠ .unused := by
  intro h
  simp only [LatchesFit, h] at hs

/-- Settles O55: each phase fills its latch and hands on to a phase that needs no more, and phase 7 never fits. -/
theorem latchesStayFit : Obligations.LatchesStayFit := by
  intro s hs
  obtain ⟨t, hstep⟩ := step_next (phase_ne_unused_of_latchesFit hs)
  exact ⟨t, hstep, step_keeps (fun _ _ hu => hu) (fun _ _ => Move.latchesFit) hs hstep⟩

/-! ### The held reset -/

theorem resetImage_nsess (s : State) : s.resetImage.nsess = s.nsess := List.length_replicate

theorem resetImage_heldAtReset (s : State) : HeldAtReset s.resetImage := by
  intro _
  rw [resetImage_nsess]
  rfl

theorem heldAtReset_schedule (s : State) (rest : List Turn) (hs : HeldAtReset s) :
    HeldAtReset { s with schedule := rest } :=
  fun hrst => congrArg (fun u : State => { u with schedule := rest }) (hs hrst)

theorem readTurn_heldAtReset (a : Addr) {s : State} (hs : HeldAtReset s) : HeldAtReset (readTurn a s) :=
  fun hrst => congrArg (fun u : State => { u with reads := s.reads ++ [hostRead a s] }) (hs hrst)

theorem writeLoc_rst (l : Loc) (a : Nat) (d : Byte) (s : State) : (writeLoc l a d s).rst = s.rst := by
  cases l
  case buffer b => rw [writeLoc_buffer]
  all_goals rfl

theorem hostWrite_rst (a : Addr) (d : Byte) (s : State) : (hostWrite a d s).rst = s.rst :=
  hostWrite_induct (P := fun u => u.rst = s.rst) a rfl rfl fun l b => writeLoc_rst l b d s

/-- The host port is dead under reset (R159). -/
theorem hostWrite_of_rst (a : Addr) (d : Byte) {s : State} (hrst : s.rst = true) : hostWrite a d s = s := if_pos hrst

theorem hostWrite_heldAtReset (a : Addr) (d : Byte) {s : State} (hs : HeldAtReset s) :
    HeldAtReset (hostWrite a d s) := by
  intro hrst
  rw [hostWrite_rst] at hrst
  rw [hostWrite_of_rst a d hrst]
  exact hs hrst

theorem setReset_heldAtReset (level : Bool) {s : State} (hs : HeldAtReset s) : HeldAtReset (setReset level s) := by
  cases level with
  | false => exact nofun
  | true =>
    cases hrst : s.rst with
    | false => simpa [setReset, hrst] using resetImage_heldAtReset s
    | true => simpa [setReset, hrst] using hs

theorem Move.heldAtReset {s t : State} (hs : HeldAtReset s) (h : Move s t) : HeldAtReset t := by
  cases h with
  | stay _ => exact hs
  | block hrst _ hexec => exact fun ht => absurd ((exec_rst hexec).symm.trans ht) (by simp [hrst])
  | read a => exact readTurn_heldAtReset a hs
  | write a d => exact hostWrite_heldAtReset a d hs
  | rst level => exact setReset_heldAtReset level hs

/-- Settles O54: under reset the block takes no step and the host port is dead, so only the schedule and the log of
reads can change; the release changes the input `rst` only. -/
theorem heldResetStays : Obligations.HeldResetStays := by
  refine ⟨fun s t => step_keeps heldAtReset_schedule fun _ _ => Move.heldAtReset, ?_⟩
  intro s rest hs hrst hschedule
  refine ⟨setReset false { s with schedule := rest }, by rw [step, hschedule], rfl, ?_, ?_⟩
  · exact congrArg State.phase (hs hrst)
  · exact congrArg (fun u : State => { u with schedule := rest, rst := false }) (hs hrst)

/-! ### The reset state -/

theorem reset_slotsLegal : SlotsLegal State.reset := by
  refine ⟨by decide, by decide, fun sl hsl => ?_⟩
  rw [List.eq_of_mem_replicate hsl]
  exact ⟨by decide, by decide, by decide⟩

theorem reset_latchCurrent : LatchCurrent State.reset := fun hbusy => absurd rfl hbusy

theorem reset_framesLegal : FramesLegal State.reset :=
  ⟨reset_slotsLegal, reset_latchCurrent, nofun, nofun, nofun, nofun⟩

/-- Settles O58: after reset the block is idle, its logs are empty and its registers are in range. -/
theorem resetMeetsInvariants : Obligations.ResetMeetsInvariants :=
  ⟨wf_reset, reset_slotsLegal, ⟨by decide, by decide⟩, reset_latchCurrent, nofun, True.intro, ⟨rfl, nofun⟩, nofun,
    reset_framesLegal⟩

end Sys2Proof.Proofs
end

section
/-! The block's turn: what a step runs (O4, O5), and that a command moves forward through its phases and ends
(O6, O7). -/

namespace Sys2Proof.Proofs

open Sys2Proof Sys2Proof.Machine

/-! ### The block's turn -/

theorem step_of_nil {s : State} (h : s.schedule = []) : step s = blockTurn s := by rw [step, h]

theorem step_of_block {s : State} {rest : List Turn} (h : s.schedule = .block :: rest) :
    step s = blockTurn { s with schedule := rest } := by rw [step, h]

theorem blockTurn_of_running {s : State} (hrst : s.rst = false) (hbusy : s.phase ≠ .idle) :
    blockTurn s = exec (decodeCmd s.lat.inp.cmd) s := by
  obtain ⟨hrst' | hidle, -⟩ | ⟨-, -, h⟩ := blockTurn_cases s
  · simp [hrst] at hrst'
  · exact absurd hidle hbusy
  · exact h

theorem blockTurn_of_stopped {s : State} (h : s.rst = true ∨ s.phase = .idle) : blockTurn s = .next s := by
  obtain ⟨-, hturn⟩ | ⟨hrst, hbusy, -⟩ := blockTurn_cases s
  · exact hturn
  · simp [hrst, hbusy] at h

/-- Settles O4: the block's turn with a command running is one phase of the command in the snapshot. -/
theorem stepRunsDecodedInstruction : Obligations.StepRunsDecodedInstruction := by
  intro s i hrst hbusy hdecode
  obtain rfl : decodeCmd s.lat.inp.cmd = i := by simpa [decode] using hdecode
  refine ⟨fun hnil => ?_, fun rest hblock => ?_⟩
  · rw [step_of_nil hnil, blockTurn_of_running hrst hbusy]
  · rw [step_of_block hblock, blockTurn_of_running (s := { s with schedule := rest }) hrst hbusy]

theorem txWrite_of_hangs {s : State} (f : List Byte) (h : s.txAnswers.head? = some none) : txWrite f s = none := by
  obtain ⟨rest, hanswers⟩ := List.head?_eq_some_iff.mp h
  simp [txWrite, hanswers]

theorem rxRead_of_hangs {s : State} (k : Nat) (h : s.rxAnswers.head? = some none) : rxRead k s = none := by
  obtain ⟨rest, hanswers⟩ := List.head?_eq_some_iff.mp h
  simp [rxRead, hanswers]

theorem exec_tx (i : Instr) {s : State} (h : s.phase = .tx) : exec i s = .next (txPhase (planOf i s) s) := by
  rw [exec_eq_runPhase, runPhase, h]

theorem exec_rx (i : Instr) {s : State} (h : s.phase = .rx) : exec i s = .next (rxPhase (planOf i s) s) := by
  rw [exec_eq_runPhase, runPhase, h]

/-- Settles O5: the block's turn is empty in IDLE and under reset, and a hanging call leaves its phase where it is. -/
theorem blockWithoutStepStays : Obligations.BlockWithoutStepStays := by
  refine ⟨fun s hstopped => ⟨fun hnil => ?_, fun rest hblock => ?_⟩,
    fun i s => ⟨fun htx hhangs => ?_, fun hrx hhangs => ?_⟩⟩
  · rw [step_of_nil hnil, blockTurn_of_stopped hstopped]
  · rw [step_of_block hblock, blockTurn_of_stopped (s := { s with schedule := rest }) hstopped]
  · rw [exec_tx i htx, txPhase, txWrite_of_hangs _ hhangs]
  · rw [exec_rx i hrx, rxPhase, rxRead_of_hangs _ hhangs]

/-! ### The path of a command -/

/-- The arrows between the phases of a running command (R25). -/
inductive Arrow : Phase → Phase → Prop
  | checkBuild : Arrow .check .build
  | checkCommit : Arrow .check .commit
  | buildTx : Arrow .build .tx
  | buildCommit : Arrow .build .commit
  | txRx : Arrow .tx .rx
  | txCommit : Arrow .tx .commit
  | rxDecode : Arrow .rx .decode
  | rxCommit : Arrow .rx .commit
  | decodeCommit : Arrow .decode .commit
  | commitIdle : Arrow .commit .idle

/-- An arrow leads to a later phase, or from COMMIT to IDLE. -/
theorem Arrow.forward {p q : Phase} (h : Arrow p q) :
    (phaseCode p < phaseCode q ∧ q ≠ .unused) ∨ (p = .commit ∧ q = .idle) := by
  cases h
  case commitIdle => exact .inr ⟨rfl, rfl⟩
  all_goals exact .inl ⟨by decide, nofun⟩

/-- From `s` to `t` the command takes an arrow, and the Transport still returns. -/
def Advances (s t : State) : Prop := Arrow s.phase t.phase ∧ TransportReturns t

theorem txWrite_returns {s : State} (f : List Byte) (hs : TransportReturns s) :
    ∃ a t, txWrite f s = some (a, t) ∧ TransportReturns t := by
  obtain ⟨htx, hrx⟩ := hs
  unfold txWrite
  split
  case h_1 a rest hanswers => exact ⟨_, _, rfl, fun hmem => htx (hanswers ▸ List.mem_cons_of_mem _ hmem), hrx⟩
  case h_2 rest hanswers => exact absurd (hanswers ▸ List.mem_cons_self) htx
  case h_3 => exact ⟨_, _, rfl, htx, hrx⟩

theorem rxRead_returns {s : State} (k : Nat) (hs : TransportReturns s) :
    ∃ bytes t, rxRead k s = some (bytes, t) ∧ TransportReturns t := by
  obtain ⟨htx, hrx⟩ := hs
  unfold rxRead
  split
  case h_1 bytes rest hanswers => exact ⟨_, _, rfl, htx, fun hmem => hrx (hanswers ▸ List.mem_cons_of_mem _ hmem)⟩
  case h_2 rest hanswers => exact absurd (hanswers ▸ List.mem_cons_self) hrx
  case h_3 => exact ⟨_, _, rfl, htx, hrx⟩

theorem checkPhase_advances (p : Plan) {s : State} (hphase : s.phase = .check) (hs : TransportReturns s) :
    Advances s (checkPhase p s) := by
  rw [Advances, hphase]
  obtain ⟨c, d, -, h⟩ | ⟨-, -, h⟩ | ⟨-, -, h⟩ := checkPhase_cases p s <;> rw [h]
  · exact ⟨.checkCommit, hs⟩
  · exact ⟨.checkCommit, hs⟩
  · exact ⟨.checkBuild, hs⟩

theorem buildPhase_advances (p : Plan) {s : State} (hphase : s.phase = .build) (hs : TransportReturns s) :
    Advances s (buildPhase p s) := by
  rw [Advances, hphase]
  obtain ⟨-, c, d, h⟩ | ⟨f, -, -, h⟩ | ⟨f, -, -, h⟩ := buildPhase_cases p s <;> rw [h]
  · exact ⟨.buildCommit, hs⟩
  · exact ⟨.buildTx, hs⟩
  · exact ⟨.buildCommit, hs⟩

theorem txPhase_advances (p : Plan) {s : State} (hphase : s.phase = .tx) (hs : TransportReturns s) :
    Advances s (txPhase p s) := by
  obtain ⟨a, t, hcall, ht⟩ := txWrite_returns (s.frame.getD []) hs
  rw [Advances, hphase]
  obtain ⟨hhangs, -⟩ | ⟨a', t', hcall', hend⟩ := txPhase_cases p s
  · simp [hcall] at hhangs
  · obtain ⟨rfl, rfl⟩ : a = a' ∧ t = t' := by simpa [hcall] using hcall'
    obtain ⟨-, h⟩ | ⟨-, -, h⟩ | ⟨-, -, h⟩ := hend <;> rw [h]
    · exact ⟨.txCommit, ht⟩
    · exact ⟨.txRx, ht⟩
    · exact ⟨.txCommit, ht⟩

theorem rxPhase_advances (p : Plan) {s : State} (hphase : s.phase = .rx) (hs : TransportReturns s) :
    Advances s (rxPhase p s) := by
  obtain ⟨bytes, t, hcall, ht⟩ := rxRead_returns (p.reply.getD 0) hs
  rw [Advances, hphase]
  obtain ⟨hhangs, -⟩ | ⟨bytes', t', hcall', hend⟩ := rxPhase_cases p s
  · simp [hcall] at hhangs
  · obtain ⟨rfl, rfl⟩ : bytes = bytes' ∧ t = t' := by simpa [hcall] using hcall'
    obtain ⟨-, h⟩ | ⟨-, h⟩ := hend <;> rw [h]
    · exact ⟨.rxCommit, ht⟩
    · exact ⟨.rxDecode, ht⟩

theorem decodePhase_advances (p : Plan) {s : State} (hphase : s.phase = .decode) (hs : TransportReturns s) :
    Advances s (decodePhase p s) := by
  obtain ⟨c, d, h⟩ := decodePhase_ends p s
  rw [Advances, hphase, h]
  exact ⟨.decodeCommit, hs⟩

theorem commitPhase_advances (p : Plan) {s : State} (hphase : s.phase = .commit) (hs : TransportReturns s) :
    Advances s (commitPhase p s) := by
  rw [Advances, hphase, TransportReturns, commitPhase_txAnswers, commitPhase_rxAnswers]
  exact ⟨.commitIdle, hs⟩

/-- A running command whose Transport calls return takes an arrow in every block step. -/
theorem exec_advances {i : Instr} {s t : State} (h : exec i s = .next t) (hbusy : s.phase ≠ .idle)
    (hs : TransportReturns s) : Advances s t := by
  rw [exec_eq_runPhase] at h
  obtain ⟨hp, -⟩ | ⟨hp, rfl⟩ | ⟨hp, rfl⟩ | ⟨hp, rfl⟩ | ⟨hp, rfl⟩ | ⟨hp, rfl⟩ | ⟨hp, rfl⟩ := runPhase_cases h
  · exact absurd hp hbusy
  · exact checkPhase_advances _ hp hs
  · exact buildPhase_advances _ hp hs
  · exact txPhase_advances _ hp hs
  · exact rxPhase_advances _ hp hs
  · exact decodePhase_advances _ hp hs
  · exact commitPhase_advances _ hp hs

/-- Settles O6: phase 7 is the only one without a next state, and every arrow leads forward. -/
theorem phasesGoForward : Obligations.PhasesGoForward := by
  intro i s hunused
  obtain ⟨t, hexec⟩ := exec_next i hunused
  refine ⟨t, hexec, fun hbusy hs => ?_⟩
  obtain ⟨harrow, -⟩ := exec_advances hexec hbusy hs
  exact harrow.forward

/-! ### A command ends -/

/-- How many block steps a command in a phase takes at most until it is back in IDLE. -/
def stepsLeft : Phase → Nat
  | .idle => 0
  | .commit => 1
  | .decode => 2
  | .rx => 3
  | .tx => 4
  | .build => 5
  | .check => 6
  | .unused => 7

theorem Arrow.stepsLeft_lt {p q : Phase} (h : Arrow p q) : stepsLeft q < stepsLeft p := by cases h <;> decide

theorem Arrow.target_ne_unused {p q : Phase} (h : Arrow p q) : q ≠ .unused := by cases h <;> exact nofun

/-- With an empty schedule a block whose Transport returns is in IDLE after at most `stepsLeft` steps. -/
theorem idle_within_stepsLeft (n : Nat) {s : State} (hn : stepsLeft s.phase ≤ n) (hrst : s.rst = false)
    (hunused : s.phase ≠ .unused) (hnil : s.schedule = []) (hs : TransportReturns s) :
    ∃ m ≤ n, ∃ t, StepChain m s t ∧ t.phase = .idle := by
  induction n generalizing s with
  | zero =>
    have hidle : s.phase = .idle := by
      cases hphase : s.phase <;> simp [hphase, stepsLeft] at hn ⊢
    exact ⟨0, le_rfl, s, rfl, hidle⟩
  | succ n ih =>
    by_cases hbusy : s.phase = .idle
    · exact ⟨0, Nat.zero_le _, s, rfl, hbusy⟩
    · obtain ⟨t, hexec⟩ := exec_next (decodeCmd s.lat.inp.cmd) hunused
      have hstep : step s = .next t := by rw [step_of_nil hnil, blockTurn_of_running hrst hbusy, hexec]
      obtain ⟨harrow, ht⟩ := exec_advances hexec hbusy hs
      obtain ⟨m, hm, u, hchain, hidle⟩ := ih (Nat.le_of_lt_succ (harrow.stepsLeft_lt.trans_le hn))
        ((exec_rst hexec).trans hrst) harrow.target_ne_unused ((exec_schedule hexec).trans hnil) ht
      exact ⟨m + 1, Nat.succ_le_succ hm, u, ⟨t, hstep, hchain⟩, hidle⟩

theorem stepsLeft_le (p : Phase) : stepsLeft p ≤ 7 := by cases p <;> decide

/-- Settles O7: every arrow shortens the way to IDLE, which is never longer than seven steps. -/
theorem commandsEndWithinSevenSteps : Obligations.CommandsEndWithinSevenSteps :=
  fun s hrst hunused hnil hs => idle_within_stepsLeft 7 (stepsLeft_le s.phase) hrst hunused hnil hs

end Sys2Proof.Proofs
end

section
/-! Fault bits, `STATUS`, `irq` and the host port: what each address reads as, and what a host write does while idle
(O17 to O21, O24 to O27, O59). -/

namespace Sys2Proof.Proofs

open Sys2Proof Sys2Proof.Machine

/-! ### The error byte, bit by bit -/

theorem faultBit_lt (k : FaultKind) : faultBit k < 7 := by cases k <;> decide

theorem exists_faultBit {j : Nat} (h : j < 7) : ∃ k, faultBit k = j := by
  interval_cases j
  exacts [⟨.inputVoltage, rfl⟩, ⟨.angleLimit, rfl⟩, ⟨.overheating, rfl⟩, ⟨.range, rfl⟩, ⟨.checksum, rfl⟩,
    ⟨.overload, rfl⟩, ⟨.instruction, rfl⟩]

theorem mem_faultSet {k : FaultKind} {e : Byte} : k ∈ faultSet e ↔ e.getLsbD (faultBit k) = true := by
  have hmem : k ∈ faultKinds := by cases k <;> decide
  rw [faultSet, List.mem_filter, and_iff_right hmem]

/-- `faults(e)` is bits 6:0 of the error byte (R120). -/
theorem faultVector_getLsbD (e : Byte) (j : Nat) : (faultVector e).getLsbD j = (e.getLsbD j && decide (j < 7)) := by
  rw [faultVector, BitVec.getLsbD_and]
  congr 1
  by_cases hj : j < 8
  · interval_cases j <;> rfl
  · rw [BitVec.getLsbD_of_ge _ _ (by omega), decide_eq_false (by omega)]

theorem anyFault_iff (e : Byte) : anyFault e = true ↔ ∃ j < 7, e.getLsbD j = true := by
  rw [anyFault, bne_iff_ne, ← not_iff_not, not_not]
  constructor
  · rintro hzero ⟨j, hj, hbit⟩
    have hvector := faultVector_getLsbD e j
    simp [hzero, hj, hbit] at hvector
  · intro hnone
    refine BitVec.eq_of_getLsbD_eq fun j _ => ?_
    show (faultVector e).getLsbD j = (0#8).getLsbD j
    rw [faultVector_getLsbD, BitVec.getLsbD_zero, Bool.and_eq_false_iff, decide_eq_false_iff_not]
    by_contra hboth
    simp only [not_or, Bool.not_eq_false, not_not] at hboth
    exact hnone ⟨j, hboth.2, hboth.1⟩

theorem anyFault_iff_faultSet_ne_nil (e : Byte) : anyFault e = true ↔ faultSet e ≠ [] := by
  rw [anyFault_iff]
  constructor
  · rintro ⟨j, hj, hbit⟩
    obtain ⟨k, rfl⟩ := exists_faultBit hj
    exact List.ne_nil_of_mem (mem_faultSet.mpr hbit)
  · intro hne
    obtain ⟨k, hk⟩ := List.exists_mem_of_ne_nil _ hne
    exact ⟨faultBit k, faultBit_lt k, mem_faultSet.mp hk⟩

/-- Bit 7 apart, flipping bit 7 changes no bit (R122). -/
theorem getLsbD_xor_reserved (e : Byte) {j : Nat} (h : j < 7) : (e ^^^ 0x80).getLsbD j = e.getLsbD j := by
  have hbit : (0x80 : Byte).getLsbD j = false := by interval_cases j <;> rfl
  rw [BitVec.getLsbD_xor, hbit, Bool.xor_false]

theorem faultSet_xor_reserved (e : Byte) : faultSet (e ^^^ 0x80) = faultSet e :=
  List.filter_congr fun k _ => getLsbD_xor_reserved e (faultBit_lt k)

theorem anyFault_xor_reserved (e : Byte) : anyFault (e ^^^ 0x80) = anyFault e := by
  rw [Bool.eq_iff_iff, anyFault_iff_faultSet_ne_nil, anyFault_iff_faultSet_ne_nil, faultSet_xor_reserved]

theorem firstFault_xor_reserved (e : Byte) : firstFault (e ^^^ 0x80) = firstFault e := by
  rw [firstFault, firstFault, List.find?_congr fun j hj => getLsbD_xor_reserved e (List.mem_range.mp hj)]

/-- Settles O18: the fault set lists the kinds whose bit, always below 7, is set. -/
theorem faultSetIsSetBits : Obligations.FaultSetIsSetBits := by
  refine ⟨fun e => ?_, fun s k => mem_faultSet.symm, anyFault_iff_faultSet_ne_nil, fun e => ?_, fun s => rfl⟩
  · exact ⟨mem_faultSet, mem_faultSet, mem_faultSet, mem_faultSet, mem_faultSet, mem_faultSet, mem_faultSet⟩
  · exact ⟨faultSet_xor_reserved e, anyFault_xor_reserved e, firstFault_xor_reserved e⟩

theorem hostRead_fault (s : State) : hostRead 0x013 s = faultVector s.rxError := rfl

theorem hostRead_fault_getLsbD (s : State) {j : Nat} (h : j < 7) :
    (hostRead 0x013 s).getLsbD j = s.rxError.getLsbD j := by
  rw [hostRead_fault, faultVector_getLsbD, decide_eq_true h, Bool.and_true]

theorem faultLine_eq_hostRead (s : State) (k : FaultKind) :
    faultLine s k = (hostRead 0x013 s).getLsbD (faultBit k) := (hostRead_fault_getLsbD s (faultBit_lt k)).symm

/-- Settles O17: `FAULT` is the vector of bits 6:0, and each line is its kind's bit there. -/
theorem faultShowsErrorByte : Obligations.FaultShowsErrorByte := by
  refine ⟨fun s => ⟨fun j hj => hostRead_fault_getLsbD s (by omega), ?_, ?_⟩, rfl⟩
  · rw [hostRead_fault, faultVector_getLsbD]
    exact Bool.and_false _
  · exact ⟨faultLine_eq_hostRead s _, faultLine_eq_hostRead s _, faultLine_eq_hostRead s _, faultLine_eq_hostRead s _,
      faultLine_eq_hostRead s _, faultLine_eq_hostRead s _, faultLine_eq_hostRead s _⟩

/-! ### `STATUS` and `irq` -/

theorem bitByte_getLsbD (b : Bool) (k : Nat) {j : Nat} (h : j < 8) :
    (bitByte b k).getLsbD j = (b && decide (k = j)) := by
  cases b
  · simp [bitByte]
  · rw [bitByte, if_pos rfl, BitVec.getLsbD_ofNat, Nat.testBit_two_pow, decide_eq_true h]

/-- Which flag each bit of `STATUS` shows (R27). -/
theorem statusByte_getLsbD (s : State) {j : Nat} (h : j < 8) :
    (statusByte s).getLsbD j =
      (s.busy && decide (0 = j) || s.done && decide (1 = j) || s.overrun && decide (2 = j) ||
        s.busSuspect && decide (3 = j) || s.rsvdErr && decide (4 = j) || s.faultAny && decide (5 = j)) := by
  simp only [statusByte, BitVec.getLsbD_or, bitByte_getLsbD _ _ h]

theorem hostRead_status (s : State) : hostRead 0x001 s = statusByte s := rfl

theorem busy_iff (s : State) : s.busy = true ↔ s.phase ≠ .idle := bne_iff_ne

theorem faultAny_iff (s : State) : s.faultAny = true ↔ s.rxError &&& 0x7F ≠ 0 := bne_iff_ne

/-- Settles O19: the flags stand at distinct bits 0 to 5. -/
theorem statusBits : Obligations.StatusBits := by
  intro s
  simp (disch := decide) only [hostRead_status, statusByte_getLsbD]
  simp [busy_iff, faultAny_iff]

/-- A write that is neither under reset nor blocked has its location's effect. -/
theorem hostWrite_accepted {s : State} {a : Addr} {l : Loc} (d : Byte) (hl : locate s.nsess a.toNat = l)
    (hrst : s.rst = false) (hfree : s.phase = .idle ∨ blockedWhileBusy l = false) :
    hostWrite a d s = writeLoc l a.toNat d s := by
  subst hl
  obtain ⟨hrst', -⟩ | ⟨-, hbusy, hblocked, -⟩ | ⟨-, -, h⟩ := hostWrite_cases a d s
  · simp [hrst] at hrst'
  · obtain hidle | hfree := hfree
    · exact absurd hidle ((busy_iff s).mp hbusy)
    · simp [hfree] at hblocked
  · exact h

theorem hostWrite_status {s : State} (d : Byte) (hrst : s.rst = false) : hostWrite 0x001 d s = writeStatus d s :=
  hostWrite_accepted (l := .status) d rfl hrst (.inr rfl)

theorem hostWrite_ctrl {s : State} (d : Byte) (hrst : s.rst = false) :
    hostWrite 0x004 d s = { s with ctrl := d &&& 0x01 } :=
  hostWrite_accepted (l := .ctrl) d rfl hrst (.inr rfl)

theorem hostWrite_cmd {s : State} (d : Byte) (hrst : s.rst = false) (hidle : s.phase = .idle) :
    hostWrite 0x000 d s = startCommand d s :=
  hostWrite_accepted (l := .cmd) d rfl hrst (.inl hidle)

/-- Settles O20: `irq` falls with `DONE`, which an acknowledge and a start clear, and with `IRQ_EN`. -/
theorem irqFollowsDoneAndEnable : Obligations.IrqFollowsDoneAndEnable := by
  refine fun s => ⟨rfl, fun hrst => ?_, fun hrst hidle d => ?_, fun hrst => ?_⟩
  · rw [hostWrite_status _ hrst]
    exact ⟨by simp [irq], by simp⟩
  · rw [hostWrite_cmd d hrst hidle]
    rfl
  · rw [hostWrite_ctrl _ hrst]
    exact ⟨by simp [irq, irqEnable], rfl⟩

theorem step_of_write {s : State} {a : Addr} {d : Byte} {rest : List Turn} (h : s.schedule = .write a d :: rest) :
    step s = .next (hostWrite a d { s with schedule := rest }) := by rw [step, h]

/-- Settles O21: the write of `CMD` is accepted, and the start takes its snapshot from the new `CMD`. -/
theorem commandStart : Obligations.CommandStart := by
  intro s d rest hrst hidle hschedule
  have hwrite := hostWrite_cmd (s := { s with schedule := rest }) d hrst hidle
  refine ⟨startCommand d { s with schedule := rest }, ?_, ⟨rfl, rfl, rfl, rfl, rfl, rfl⟩, rfl, rfl, ?_, rfl⟩
  · rw [step_of_write hschedule, hwrite]
  · exact fun sl hsl => snapshot_slot (s := { s with schedule := rest, inp := { s.inp with cmd := d } }) hsl

/-! ### The address map -/

/-- Field `j` of slot `k`: four addresses to a slot from 0x040 on (R30). -/
theorem locate_slot {n k j : Nat} (hk : k < 16) (hn : k < n) (hj : j < 4) :
    locate n (0x040 + j + 4 * k) = .slot k (slotFieldAt j) := by
  have hslot : (0x040 + j + 4 * k - 0x040) / 4 = k := by omega
  have hfield : (0x040 + j + 4 * k - 0x040) % 4 = j := by omega
  rw [locate, if_neg (by omega), if_pos (by omega), hslot, hfield, if_pos hn]

/-- From 0x100 on there are buffers only (R60). -/
theorem exists_buffer_of_high (n : Nat) {a : Nat} (h : 0x100 ≤ a) : ∃ b, locate n a = .buffer b := by
  rw [locate, if_neg (by omega), if_neg (by omega), if_neg (by omega)]
  split
  · exact ⟨.txdata, rfl⟩
  · split
    · exact ⟨.txframe, rfl⟩
    · split
      · exact ⟨.rxframe, rfl⟩
      · split
        · exact ⟨.rxdata, rfl⟩
        · exact ⟨.batch, rfl⟩

/-- From the session table on there are no registers (R60). -/
theorem locate_above_registers (n : Nat) {a : Nat} (h : 0x040 ≤ a) :
    (∃ k f, locate n a = .slot k f) ∨ (∃ b, locate n a = .buffer b) ∨ locate n a = .reserved := by
  by_cases hhigh : 0x100 ≤ a
  · exact .inr (.inl (exists_buffer_of_high n hhigh))
  · rw [locate, if_neg (by omega)]
    split
    · split
      · exact .inl ⟨_, _, rfl⟩
      · exact .inr (.inr rfl)
    · exact .inr (.inr (if_pos (by omega)))

/-- The buffers the host may write are `TXDATA`, `RXFRAME` and `BATCH` (R41). -/
theorem exists_writable_buffer (n : Nat) {a : Nat}
    (h : (0x100 ≤ a ∧ a < 0x200) ∨ (0x400 ≤ a ∧ a < 0x600) ∨ 0x700 ≤ a) :
    ∃ b, locate n a = .buffer b ∧ bufferHostWritable b = true := by
  rw [locate, if_neg (by omega), if_neg (by omega), if_neg (by omega)]
  obtain ⟨hlow, hhigh⟩ | ⟨hlow, hhigh⟩ | hlow := h
  · exact ⟨.txdata, if_pos hhigh, rfl⟩
  · exact ⟨.rxframe, by rw [if_neg (by omega), if_neg (by omega), if_pos hhigh], rfl⟩
  · exact ⟨.batch, by rw [if_neg (by omega), if_neg (by omega), if_neg (by omega), if_neg (by omega)], rfl⟩

/-! ### What the addresses read as -/

theorem hostRead_buffer {s : State} {a : Addr} {b : Buffer} (h : locate s.nsess a.toNat = .buffer b) :
    hostRead a s = s.byteAt a.toNat := by rw [hostRead, h]; rfl

theorem slotAddr_toNat {k j : Nat} (hk : k < 16) (hj : j < 4) :
    (BitVec.ofNat 11 (0x040 + j + 4 * k)).toNat = 0x040 + j + 4 * k := by
  rw [BitVec.toNat_ofNat]
  omega

theorem locate_slotAddr {s : State} {k j : Nat} {sl : Slot} (hk : k < 16) (hsl : s.slots[k]? = some sl) (hj : j < 4) :
    locate s.nsess (BitVec.ofNat 11 (0x040 + j + 4 * k)).toNat = .slot k (slotFieldAt j) := by
  have hn : k < s.nsess := (List.getElem?_eq_some_iff.mp hsl).1
  rw [slotAddr_toNat hk hj, locate_slot hk hn hj]

theorem hostRead_slot {s : State} {k : Nat} {sl : Slot} (j : Nat) (hk : k < 16) (hsl : s.slots[k]? = some sl)
    (hj : j < 4) :
    hostRead (BitVec.ofNat 11 (0x040 + j + 4 * k)) s = slotFieldValue sl (slotFieldAt j) := by
  rw [hostRead, locate_slotAddr hk hsl hj]
  simp only [readLoc, hsl]

/-- Settles O24: a read logs its value, and each address shows its register, slot field or buffer byte. -/
theorem hostReadsChangeNothing : Obligations.HostReadsChangeNothing := by
  refine ⟨fun s a rest hschedule => ?_, fun s => ⟨?_, ?_, ?_, ?_, fun k sl hk hsl => ?_, fun a hhigh => ?_⟩⟩
  · rw [step, hschedule]
    rfl
  · exact ⟨rfl, rfl, rfl, rfl, rfl⟩
  · exact ⟨rfl, rfl, rfl, rfl, rfl⟩
  · exact ⟨rfl, rfl, rfl⟩
  · exact ⟨rfl, rfl, rfl, rfl, rfl, rfl⟩
  · exact ⟨hostRead_slot 0 hk hsl (by decide), hostRead_slot 1 hk hsl (by decide),
      hostRead_slot 2 hk hsl (by decide), hostRead_slot 3 hk hsl (by decide)⟩
  · obtain ⟨b, hb⟩ := exists_buffer_of_high s.nsess hhigh
    exact hostRead_buffer hb

/-- Settles O59: the reset state is one state, and its registers are read off. -/
theorem resetReads : Obligations.ResetReads :=
  ⟨by decide, by decide, by decide, by decide, by decide, rfl, rfl, rfl, fun k => by cases k <;> rfl⟩

/-! ### Host writes to slots and buffers while idle -/

theorem modify_eq_set_of_getElem? {slots : List Slot} {k : Nat} {sl : Slot} (f : Slot → Slot)
    (h : slots[k]? = some sl) : slots.modify k f = slots.set k (f sl) := by
  rw [List.modify_eq_set_getElem?, h]
  rfl

theorem set_eq_self_of_getElem? {slots : List Slot} {k : Nat} {sl : Slot} (h : slots[k]? = some sl) :
    slots.set k sl = slots := by
  obtain ⟨hk, rfl⟩ := List.getElem?_eq_some_iff.mp h
  exact List.set_getElem_self hk

theorem hostWrite_slot {s : State} {k : Nat} {sl : Slot} (j : Nat) (d : Byte) (hrst : s.rst = false)
    (hidle : s.phase = .idle) (hk : k < 16) (hsl : s.slots[k]? = some sl) (hj : j < 4) :
    hostWrite (BitVec.ofNat 11 (0x040 + j + 4 * k)) d s =
      { s with slots := s.slots.set k (writeSlotField (slotFieldAt j) d sl) } := by
  rw [hostWrite_accepted d (locate_slotAddr hk hsl hj) hrst (.inl hidle), writeLoc, modify_eq_set_of_getElem? _ hsl]

/-- Settles O26: the write reaches field `j` of slot `k`, which takes a legal value and keeps its own otherwise. -/
theorem slotFieldWrites : Obligations.SlotFieldWrites := by
  intro s k sl d hrst hidle hk hsl
  have hwrite := fun j => hostWrite_slot j d hrst hidle hk hsl
  have hkeep : { s with slots := s.slots.set k sl } = s := by rw [set_eq_self_of_getElem? hsl]
  refine ⟨(hwrite 0 (by decide)).trans ?_, (hwrite 1 (by decide)).trans ?_, (hwrite 2 (by decide)).trans ?_⟩
  · show { s with slots := s.slots.set k (if d.toNat ≤ 253 then { sl with id := d } else sl) } = _
    split
    · rfl
    · exact hkeep
  · show { s with slots := s.slots.set k (if d.toNat ≤ 2 then { sl with srl := d } else sl) } = _
    split
    · rfl
    · exact hkeep
  · show { s with slots := s.slots.set k (if d.toNat ≤ 254 then { sl with rdelay := d } else sl) } = _
    split
    · rfl
    · exact hkeep

theorem byteAt_write (s : State) (a c : Nat) (d : Byte) :
    State.byteAt { s with ram := Memory.write s.ram a d } c = if c = a then d else s.byteAt c := by
  rw [State.byteAt, read?_write]
  split <;> rfl

/-- Only a buffer's address reads the memory. -/
theorem readLoc_ram {l : Loc} (a : Nat) (s : State) (m : Memory) (h : ∀ b, l ≠ .buffer b) :
    readLoc l a { s with ram := m } = readLoc l a s := by
  cases l
  case buffer b => exact absurd rfl (h b)
  all_goals rfl

theorem hostRead_write_ram (s : State) (a c : Addr) (d : Byte) (hbuffer : ∃ b, locate s.nsess a.toNat = .buffer b) :
    hostRead c { s with ram := Memory.write s.ram a.toNat d } = if c = a then d else hostRead c s := by
  by_cases hc : ∃ b, locate s.nsess c.toNat = .buffer b
  · obtain ⟨b, hb⟩ := hc
    rw [hostRead_buffer (s := { s with ram := Memory.write s.ram a.toNat d }) hb, hostRead_buffer hb, byteAt_write]
    simp only [BitVec.toNat_inj]
  · have hne : c ≠ a := fun h => hc (h ▸ hbuffer)
    rw [if_neg hne]
    exact readLoc_ram _ s _ fun b hb => hc ⟨b, hb⟩

/-- Settles O27: the write stores one byte of memory, and only that byte's address reads it. -/
theorem bufferWriteThenRead : Obligations.BufferWriteThenRead := by
  intro s a d hrst hidle hrange
  obtain ⟨b, hb, hwritable⟩ := exists_writable_buffer s.nsess hrange
  have hwrite : hostWrite a d s = { s with ram := Memory.write s.ram a.toNat d } := by
    rw [hostWrite_accepted d hb hrst (.inl hidle), writeLoc, if_pos hwritable]
  have hread := fun c => hostRead_write_ram s a c d ⟨b, hb⟩
  rw [hwrite]
  exact ⟨(hread a).trans (if_pos rfl), fun c hc => (hread c).trans (if_neg hc), rfl⟩

/-! ### Host writes to registers while idle -/

/-- The registers that store what the host writes: the read-write ones but `CMD` and `STATUS` (R60). -/
def storesWrite : Loc → Bool
  | .ctrl | .cmdId | .cmdAddr | .cmdCount | .cmdFlags | .cmdInstr | .regLimitLo | .regLimitHi
  | .rxRawLenLo | .rxRawLenHi | .instrPing | .instrRead | .instrWrite | .instrRegWrite | .instrAction
  | .instrSyncWrite => true
  | _ => false

/-- What such a register stores of `d`: reserved bits stay 0 (R22, R34). -/
def storedValue (l : Loc) (d : Byte) : Byte :=
  match l with
  | .ctrl => d &&& 0x01
  | .cmdFlags => d &&& 0x03
  | _ => d

theorem readLoc_writeLoc_same {l : Loc} (h : storesWrite l = true) (a : Nat) (d : Byte) (s : State) :
    readLoc l a (writeLoc l a d s) = storedValue l d := by
  cases l
  case regLimitLo | rxRawLenLo => exact lowByte_joinBytes d _
  case regLimitHi | rxRawLenHi => exact highByte_joinBytes _ d
  all_goals first | rfl | cases h

/-- No register's write changes what another location reads as: the two share no field, or are the halves of one. -/
theorem readLoc_writeLoc_other {l l' : Loc} (h : storesWrite l = true) (hne : l' ≠ l) (a c : Nat) (d : Byte)
    (s : State) : readLoc l' c (writeLoc l a d s) = readLoc l' c s := by
  cases l
  case regLimitLo | rxRawLenLo => cases l' <;> first | exact absurd rfl hne | exact highByte_joinBytes d _ | rfl
  case regLimitHi | rxRawLenHi => cases l' <;> first | exact absurd rfl hne | exact lowByte_joinBytes _ d | rfl
  case ctrl | cmdId | cmdAddr | cmdCount | cmdFlags | cmdInstr | instrPing | instrRead | instrWrite | instrRegWrite
    | instrAction | instrSyncWrite => cases l' <;> first | exact absurd rfl hne | rfl
  all_goals cases h

theorem writeLoc_nsess (l : Loc) (a : Nat) (d : Byte) (s : State) : (writeLoc l a d s).nsess = s.nsess :=
  (writeLoc_tableKept l a d s).1

/-- The address of a register below the session table (R60). -/
def registerAddress : Loc → Nat
  | .cmd => 0x000
  | .status => 0x001
  | .outcome => 0x002
  | .detail => 0x003
  | .ctrl => 0x004
  | .nsessRo => 0x005
  | .cmdId => 0x008
  | .cmdAddr => 0x009
  | .cmdCount => 0x00A
  | .cmdFlags => 0x00B
  | .cmdInstr => 0x00C
  | .regLimitLo => 0x00E
  | .regLimitHi => 0x00F
  | .rxSrcId => 0x010
  | .rxError => 0x011
  | .rxPlen => 0x012
  | .fault => 0x013
  | .faultFirst => 0x014
  | .rxRawLenLo => 0x016
  | .rxRawLenHi => 0x017
  | .txLenLo => 0x018
  | .txLenHi => 0x019
  | .instrPing => 0x020
  | .instrRead => 0x021
  | .instrWrite => 0x022
  | .instrRegWrite => 0x023
  | .instrAction => 0x024
  | .instrSyncWrite => 0x025
  | .slot _ _ | .buffer _ | .reserved => 0

theorem registerAddress_registerAt {a : Nat} (h : registerAt a ≠ .reserved) : registerAddress (registerAt a) = a := by
  unfold registerAt at h ⊢
  split at h
  case h_29 => exact absurd rfl h
  all_goals rfl

/-- A register stands at one address only. -/
theorem registerAddress_locate {n a : Nat} (h : storesWrite (locate n a) = true) :
    registerAddress (locate n a) = a := by
  by_cases hlow : a < 0x040
  · rw [locate, if_pos hlow] at h ⊢
    exact registerAddress_registerAt fun hreserved => by simp [hreserved, storesWrite] at h
  · exfalso
    obtain ⟨k, f, hl⟩ | ⟨b, hl⟩ | hl := locate_above_registers n (Nat.le_of_not_lt hlow) <;> simp [hl, storesWrite] at h

theorem registerWrite_readsBack {s : State} {a : Addr} (d : Byte) (hrst : s.rst = false) (hidle : s.phase = .idle)
    (hstores : storesWrite (locate s.nsess a.toNat) = true) :
    hostRead a (hostWrite a d s) = storedValue (locate s.nsess a.toNat) d ∧
      ∀ b, b ≠ a → hostRead b (hostWrite a d s) = hostRead b s := by
  rw [hostWrite_accepted d rfl hrst (.inl hidle)]
  simp only [hostRead, writeLoc_nsess]
  refine ⟨readLoc_writeLoc_same hstores _ d s, fun b hb => readLoc_writeLoc_other hstores (fun hsame => hb ?_) _ _ d s⟩
  apply BitVec.eq_of_toNat_eq
  rw [← registerAddress_locate hstores, ← hsame, registerAddress_locate (hsame ▸ hstores)]

/-- Write-1-to-clear of one flag (R27). -/
theorem clear_eq_ite (flag b : Bool) : (flag && !b) = if b then false else flag := by cases b <;> simp

/-- Settles O25: each register is a location of its own, which stores the byte without its reserved bits; `STATUS`
is write-1-to-clear. -/
theorem registerWriteReadsBack : Obligations.RegisterWriteReadsBack := by
  intro s a d hrst hidle
  refine ⟨fun ha => ?_, registerWrite_readsBack d hrst hidle rfl, registerWrite_readsBack d hrst hidle rfl, ?_⟩
  · simp only [List.mem_cons, List.not_mem_nil, or_false] at ha
    obtain rfl | rfl | rfl | rfl | rfl | rfl | rfl | rfl | rfl | rfl | rfl | rfl | rfl | rfl := ha <;>
      exact registerWrite_readsBack d hrst hidle rfl
  · simp only [hostWrite_status d hrst, writeStatus, clear_eq_ite]

end Sys2Proof.Proofs
end

section
/-! What the host's flags and COMMIT do to a command: host writes while busy cannot disturb it (O30), what COMMIT
writes (O48, O49), and the command DECODE, which ends in COMMIT without a Transport call (O35). -/

namespace Sys2Proof.Proofs

open Sys2Proof Sys2Proof.Machine

/-! ### The phases do not look at the flags -/

/-- `s` with other flags and another `CTRL`. -/
def withFlags (done overrun rsvdErr : Bool) (ctrl : Byte) (s : State) : State :=
  { s with done := done, overrun := overrun, rsvdErr := rsvdErr, ctrl := ctrl }

section
variable (done overrun rsvdErr : Bool) (ctrl : Byte)

theorem checkRecords_withFlags (s : State) (v n o : Nat) :
    checkRecords (withFlags done overrun rsvdErr ctrl s) v n o = checkRecords s v n o := by
  have hbyte : bufferByte (withFlags done overrun rsvdErr ctrl s) .batch = bufferByte s .batch := rfl
  induction n generalizing o with
  | zero => rfl
  | succ n ih => simp only [checkRecords, hbyte, ih]

theorem checkBatch_withFlags (s : State) : checkBatch (withFlags done overrun rsvdErr ctrl s) = checkBatch s := by
  unfold checkBatch
  rw [checkRecords_withFlags]
  rfl

theorem planOf_withFlags (i : Instr) (s : State) : planOf i (withFlags done overrun rsvdErr ctrl s) = planOf i s := by
  cases i
  case syncWrite k => simp only [planOf, planSyncWrite, checkBatch_withFlags]; rfl
  all_goals rfl

theorem checkPhase_withFlags (p : Plan) (s : State) :
    checkPhase p (withFlags done overrun rsvdErr ctrl s) = withFlags done overrun rsvdErr ctrl (checkPhase p s) := by
  unfold checkPhase
  split
  · rfl
  · split <;> rfl

theorem decodePhase_withFlags (p : Plan) (s : State) :
    decodePhase p (withFlags done overrun rsvdErr ctrl s) = withFlags done overrun rsvdErr ctrl (decodePhase p s) := by
  have hinput : decodeInput p (withFlags done overrun rsvdErr ctrl s) = decodeInput p s := rfl
  unfold decodePhase
  rw [hinput]
  cases decodeInput p s with
  | malformed d => rfl
  | checksumMismatch => rfl
  | valid src err params =>
    dsimp only
    split
    · rfl
    · split <;> rfl

theorem buildPhase_withFlags (p : Plan) (s : State) :
    buildPhase p (withFlags done overrun rsvdErr ctrl s) = withFlags done overrun rsvdErr ctrl (buildPhase p s) := by
  unfold buildPhase
  split
  · exact decodePhase_withFlags done overrun rsvdErr ctrl p { s with phase := .decode }
  · split <;> rfl

theorem txWrite_withFlags (f : List Byte) (s : State) :
    txWrite f (withFlags done overrun rsvdErr ctrl s) =
      (txWrite f s).map (Prod.map id (withFlags done overrun rsvdErr ctrl)) := by
  simp only [txWrite, withFlags]
  split <;> rfl

theorem rxRead_withFlags (k : Nat) (s : State) :
    rxRead k (withFlags done overrun rsvdErr ctrl s) =
      (rxRead k s).map (Prod.map id (withFlags done overrun rsvdErr ctrl)) := by
  simp only [rxRead, withFlags]
  split <;> rfl

theorem txPhase_withFlags (p : Plan) (s : State) :
    txPhase p (withFlags done overrun rsvdErr ctrl s) = withFlags done overrun rsvdErr ctrl (txPhase p s) := by
  have hframe : (withFlags done overrun rsvdErr ctrl s).frame = s.frame := rfl
  unfold txPhase
  rw [txWrite_withFlags, hframe]
  cases txWrite (s.frame.getD []) s with
  | none => rfl
  | some answer =>
    dsimp only [Option.map_some, Prod.map, id]
    split
    · rfl
    · split <;> rfl

theorem rxPhase_withFlags (p : Plan) (s : State) :
    rxPhase p (withFlags done overrun rsvdErr ctrl s) = withFlags done overrun rsvdErr ctrl (rxPhase p s) := by
  unfold rxPhase
  rw [rxRead_withFlags]
  cases rxRead (p.reply.getD 0) s with
  | none => rfl
  | some answer =>
    dsimp only [Option.map_some, Prod.map, id]
    split <;> rfl

theorem commitFrame_withFlags (s : State) :
    commitFrame (withFlags done overrun rsvdErr ctrl s) = withFlags done overrun rsvdErr ctrl (commitFrame s) := by
  simp only [commitFrame, withFlags]
  split <;> rfl

theorem commitRx_withFlags (s : State) :
    commitRx (withFlags done overrun rsvdErr ctrl s) = withFlags done overrun rsvdErr ctrl (commitRx s) := by
  simp only [commitRx, withFlags]
  split <;> rfl

theorem commitValid_flagsOnly (p : Plan) (s : State) :
    FlagsOnly (commitValid p s) (commitValid p (withFlags done overrun rsvdErr ctrl s)) := by
  simp only [FlagsOnly, commitValid, withFlags]
  split <;> rfl

/-- COMMIT sets `DONE` and may set `RSVD_ERR`; the other results do not depend on the flags. -/
theorem commitPhase_flagsOnly (p : Plan) (s : State) :
    FlagsOnly (commitPhase p s) (commitPhase p (withFlags done overrun rsvdErr ctrl s)) := by
  have hvalid : FlagsOnly (commitValid p (commitRx (commitFrame s)))
      (commitValid p (commitRx (commitFrame (withFlags done overrun rsvdErr ctrl s)))) := by
    rw [commitFrame_withFlags, commitRx_withFlags]
    exact commitValid_flagsOnly done overrun rsvdErr ctrl p _
  exact congrArg (fun u : State =>
    { u with
      outcome := outCodeByte (pendingOutcome s).1, detail := detailByte (pendingOutcome s).2
      busSuspect := suspectAfter p s (pendingOutcome s).1, done := true, phase := .idle }) hvalid

/-- The same phase, from states that differ in the flags, ends in states that differ in the flags. -/
theorem runPhase_withFlags {p : Plan} {s t : State} (h : runPhase p s = .next t) :
    ∃ t', runPhase p (withFlags done overrun rsvdErr ctrl s) = .next t' ∧ FlagsOnly t t' := by
  have hphase : (withFlags done overrun rsvdErr ctrl s).phase = s.phase := rfl
  unfold runPhase
  rw [hphase]
  obtain ⟨hp, rfl⟩ | ⟨hp, rfl⟩ | ⟨hp, rfl⟩ | ⟨hp, rfl⟩ | ⟨hp, rfl⟩ | ⟨hp, rfl⟩ | ⟨hp, rfl⟩ := runPhase_cases h <;>
    rw [hp]
  · exact ⟨_, rfl, rfl⟩
  · exact ⟨_, rfl, checkPhase_withFlags done overrun rsvdErr ctrl p s ▸ rfl⟩
  · exact ⟨_, rfl, buildPhase_withFlags done overrun rsvdErr ctrl p s ▸ rfl⟩
  · exact ⟨_, rfl, txPhase_withFlags done overrun rsvdErr ctrl p s ▸ rfl⟩
  · exact ⟨_, rfl, rxPhase_withFlags done overrun rsvdErr ctrl p s ▸ rfl⟩
  · exact ⟨_, rfl, decodePhase_withFlags done overrun rsvdErr ctrl p s ▸ rfl⟩
  · exact ⟨_, rfl, commitPhase_flagsOnly done overrun rsvdErr ctrl p s⟩

end

/-- Settles O30: while busy a host write reaches the flags and `CTRL` only, and no phase looks at them. -/
theorem hostCannotDisturbRunningCommand : Obligations.HostCannotDisturbRunningCommand := by
  intro i s t a d hbusy hexec
  have hflags : hostWrite a d s = withFlags _ _ _ _ s := hostWrite_flagsOnly a d hbusy
  rw [exec_eq_runPhase] at hexec
  rw [hflags, exec_eq_runPhase, planOf_withFlags]
  exact runPhase_withFlags _ _ _ _ hexec

/-! ### The session table at COMMIT -/

theorem slotOf_eq_plan_slot (i : Instr) (s : State) : slotOf i s = (planOf i s).slot := by cases i <;> rfl

theorem setLastError_eq_withLastError (k : Nat) (err : Byte) (slots : List Slot) :
    setLastError k err slots = withLastError slots k err := by
  refine List.ext_getElem? fun j => ?_
  rw [setLastError, withLastError, List.getElem?_modify, List.getElem?_mapIdx]
  simp only [eq_comm, Option.map_eq_map]

/-- Settles O49: COMMIT is the only block step that touches the session table, and it does so through the plan's
slot. -/
theorem lastErrorOfOwnSlotOnly : Obligations.LastErrorOfOwnSlotOnly := by
  intro i s t hexec
  obtain hkept | ⟨k, src, err, params, hslot, hphase, hdec, hset⟩ := exec_slots_cases hexec
  · exact .inl hkept
  · refine .inr ⟨k, src, err, params, ?_, hphase, hdec, ?_⟩
    · rw [slotOf_eq_plan_slot, hslot]
    · rw [hset, setLastError_eq_withLastError]

/-! ### Bytes laid over the memory -/

@[simp] theorem overlay_nil (base : Nat) (old : Nat → Byte) : overlay base [] old = old := by
  funext a
  rw [overlay, if_neg (by simp)]

/-- Runs of bytes that do not overlap can be laid in either order. -/
theorem overlay_comm {b b' : Nat} {bs : List Byte} (bs' : List Byte) (old : Nat → Byte) (h : b + bs.length ≤ b') :
    overlay b bs (overlay b' bs' old) = overlay b' bs' (overlay b bs old) := by
  funext a
  by_cases hin : b ≤ a ∧ a < b + bs.length
  · have hout : ¬(b' ≤ a ∧ a < b' + bs'.length) := by omega
    simp only [overlay, if_pos hin, if_neg hout]
  · simp only [overlay, if_neg hin]

theorem memoryReads_byteAt (s : State) : MemoryReads s.ram s.epoch s.byteAt := fun _ => rfl

theorem memoryReads_storeBuffer {m : Memory} {epoch : Nat} {g : Nat → Byte} {bytes : List Byte} (b : Buffer)
    (hm : MemoryReads m epoch g) (hfits : bytes.length ≤ bufferSize b) :
    MemoryReads (storeBuffer m b bytes) epoch (overlay (bufferBase b) bytes g) := by
  intro a
  rw [read?_storeBuffer m b a hfits, overlay]
  split
  · have hlt : a - bufferBase b < bytes.length := by omega
    rw [List.getD_eq_getElem?_getD, List.getElem?_eq_getElem hlt]
    rfl
  · exact hm a

theorem memoryReads_commitFrame {s : State} {epoch : Nat} {g : Nat → Byte} (hm : MemoryReads s.ram epoch g)
    (hfits : (s.frame.getD []).length ≤ 512) :
    MemoryReads (commitFrame s).ram epoch (overlay 0x200 (s.frame.getD []) g) := by
  unfold commitFrame
  cases hframe : s.frame with
  | none => simpa using hm
  | some f => exact memoryReads_storeBuffer .txframe hm (by rw [hframe] at hfits; exact hfits)

theorem memoryReads_commitRx {s : State} {epoch : Nat} {g : Nat → Byte} (hm : MemoryReads s.ram epoch g)
    (hfits : (s.rx.getD []).length ≤ 512) :
    MemoryReads (commitRx s).ram epoch (overlay 0x400 (s.rx.getD []) g) := by
  unfold commitRx
  cases hrx : s.rx with
  | none => simpa using hm
  | some bytes => exact memoryReads_storeBuffer .rxframe hm (by rw [hrx] at hfits; exact hfits)

/-! ### COMMIT of a decoded result -/

theorem commitValid_of_valid {s : State} {src err : Byte} {params : List Byte} (p : Plan)
    (h : s.dec = some (.valid src err params)) :
    commitValid p s =
      { s with
        rxSrcId := src, rxError := err, rxPlen := BitVec.ofNat 8 params.length
        ram := storeBuffer s.ram .rxdata params, rsvdErr := s.rsvdErr || reservedError err
        slots := p.slot.elim s.slots fun k => setLastError k err s.slots } := by
  simp only [commitValid, h]
  cases p.slot <;> rfl

theorem commitValid_of_invalid {s : State} (p : Plan) (h : ∀ src err params, s.dec ≠ some (.valid src err params)) :
    commitValid p s = s := by
  unfold commitValid
  split
  case h_1 src err params hdec => exact absurd hdec (h src err params)
  case h_2 => rfl

/-- `params` is the payload of the decoded result, or empty when there is no valid one. -/
def Payload (s : State) (params : List Byte) : Prop :=
  (params = [] ∧ ∀ src err p, s.dec ≠ some (.valid src err p)) ∨ ∃ src err, s.dec = some (.valid src err params)

theorem memoryReads_commitValid {s : State} {epoch : Nat} {g : Nat → Byte} {params : List Byte} (p : Plan)
    (hm : MemoryReads s.ram epoch g) (hpayload : Payload s params) (hfits : params.length ≤ 256) :
    MemoryReads (commitValid p s).ram epoch (overlay 0x600 params g) := by
  obtain ⟨rfl, hinvalid⟩ | ⟨src, err, hdec⟩ := hpayload
  · rw [commitValid_of_invalid p hinvalid, overlay_nil]
    exact hm
  · rw [commitValid_of_valid p hdec]
    exact memoryReads_storeBuffer .rxdata hm hfits

/-! ### COMMIT as a whole -/

theorem exec_commit (i : Instr) {s : State} (h : s.phase = .commit) :
    exec i s = .next (commitPhase (planOf i s) s) := by
  rw [exec_eq_runPhase, runPhase, h]

theorem commitPhase_byteAt {s : State} {params : List Byte} (p : Plan) (hframe : (s.frame.getD []).length ≤ 512)
    (hrx : (s.rx.getD []).length ≤ 512) (hparams : params.length ≤ 256) (hpayload : Payload s params) (a : Nat) :
    (commitPhase p s).byteAt a =
      overlay 0x200 (s.frame.getD []) (overlay 0x400 (s.rx.getD []) (overlay 0x600 params s.byteAt)) a := by
  have hafterFrame := memoryReads_commitFrame (memoryReads_byteAt s) hframe
  have hafterRx := memoryReads_commitRx (s := commitFrame s) hafterFrame (by rwa [commitFrame_rx])
  have hafterValid := memoryReads_commitValid (s := commitRx (commitFrame s)) p hafterRx
    (by simpa [Payload] using hpayload) hparams
  rw [commitFrame_rx, ← overlay_comm (b := 0x200) _ _ (by omega), ← overlay_comm (b := 0x200) _ _ (by omega),
    ← overlay_comm (b := 0x400) _ _ (by omega)] at hafterValid
  rw [State.byteAt, commitPhase_epoch, commitPhase_ram]
  exact hafterValid a

/-- `t` differs from `s` in the results that COMMIT writes, the phase among them. -/
def ResultsOnly (s t : State) : Prop :=
  t = { s with
        phase := t.phase, done := t.done, outcome := t.outcome, detail := t.detail, txLen := t.txLen
        rxRawLen := t.rxRawLen, rxSrcId := t.rxSrcId, rxError := t.rxError, rxPlen := t.rxPlen
        rsvdErr := t.rsvdErr, busSuspect := t.busSuspect, slots := t.slots, ram := t.ram }

theorem commitFrame_writes (s : State) : ∃ ram len, commitFrame s = { s with ram := ram, txLen := len } := by
  unfold commitFrame
  split
  · exact ⟨_, _, rfl⟩
  · exact ⟨s.ram, s.txLen, rfl⟩

theorem commitRx_writes (s : State) : ∃ ram len, commitRx s = { s with ram := ram, rxRawLen := len } := by
  unfold commitRx
  split
  · exact ⟨_, _, rfl⟩
  · exact ⟨s.ram, s.rxRawLen, rfl⟩

theorem commitValid_writes (p : Plan) (s : State) : ∃ src err len ram rsvd slots,
    commitValid p s =
      { s with
        rxSrcId := src, rxError := err, rxPlen := len, ram := ram, rsvdErr := rsvd, slots := slots } := by
  unfold commitValid
  split
  · exact ⟨_, _, _, _, _, _, rfl⟩
  · exact ⟨s.rxSrcId, s.rxError, s.rxPlen, s.ram, s.rsvdErr, s.slots, rfl⟩

theorem commitPhase_resultsOnly (p : Plan) (s : State) : ResultsOnly s (commitPhase p s) := by
  obtain ⟨_, _, hframe⟩ := commitFrame_writes s
  obtain ⟨_, _, hrx⟩ := commitRx_writes (commitFrame s)
  obtain ⟨_, _, _, _, _, _, hvalid⟩ := commitValid_writes p (commitRx (commitFrame s))
  rw [ResultsOnly, commitPhase, hvalid, hrx, hframe]

theorem commitPhase_txLen_eq (p : Plan) (s : State) :
    (commitPhase p s).txLen = s.frame.elim s.txLen fun f => BitVec.ofNat 16 f.length := by
  rw [commitPhase_txLen, commitValid_txLen, commitRx_txLen, commitFrame]
  cases s.frame <;> rfl

theorem commitPhase_rxRawLen_eq (p : Plan) (s : State) :
    (commitPhase p s).rxRawLen = s.rx.elim s.rxRawLen fun bytes => BitVec.ofNat 16 bytes.length := by
  rw [commitPhase_rxRawLen, commitValid_rxRawLen, commitRx, commitFrame_rx]
  cases s.rx
  · exact commitFrame_rxRawLen s
  · rfl

/-- The fields COMMIT takes from a valid result (R110, R122). -/
theorem commitPhase_of_valid {s : State} {src err : Byte} {params : List Byte} (p : Plan)
    (h : s.dec = some (.valid src err params)) :
    let t := commitPhase p s
    t.rxSrcId = src ∧ t.rxError = err ∧ t.rxPlen = BitVec.ofNat 8 params.length ∧
      t.rsvdErr = (s.rsvdErr || err.getLsbD 7) ∧
      t.slots = p.slot.elim s.slots fun k => withLastError s.slots k err := by
  have hdec : (commitRx (commitFrame s)).dec = some (.valid src err params) := by
    rw [commitRx_dec, commitFrame_dec, h]
  dsimp only
  rw [commitPhase_rxSrcId, commitPhase_rxError, commitPhase_rxPlen, commitPhase_rsvdErr, commitPhase_slots,
    commitValid_of_valid p hdec]
  refine ⟨rfl, rfl, rfl, ?_, ?_⟩
  · simp only [commitRx_rsvdErr, commitFrame_rsvdErr, reservedError]
  · simp only [commitRx_slots, commitFrame_slots, setLastError_eq_withLastError]

theorem commitPhase_of_invalid {s : State} (p : Plan) (h : ∀ src err params, s.dec ≠ some (.valid src err params)) :
    let t := commitPhase p s
    t.rxSrcId = s.rxSrcId ∧ t.rxError = s.rxError ∧ t.rxPlen = s.rxPlen ∧ t.rsvdErr = s.rsvdErr := by
  have hdec : ∀ src err params, (commitRx (commitFrame s)).dec ≠ some (.valid src err params) := by
    rwa [commitRx_dec, commitFrame_dec]
  simp [commitValid_of_invalid p hdec]

theorem plan_ping_iff (i : Instr) (s : State) : (planOf i s).ping = true ↔ ∃ k, i = .ping k := by
  cases i
  case ping k => exact ⟨fun _ => ⟨k, rfl⟩, fun _ => rfl⟩
  all_goals exact ⟨nofun, nofun⟩

theorem pendingOutcome_of_pend {s : State} {outcome : OutCode × Detail} (h : s.pend = some outcome) :
    pendingOutcome s = outcome := by rw [pendingOutcome, h, Option.getD_some]

theorem suspectAfter_of_framing {s : State} {code : OutCode} (p : Plan)
    (h : s.acc.isSome = true ∧ code ∈ [OutCode.malformed, .checksumMismatch]) : suspectAfter p s code = true := by
  simp only [List.mem_cons, List.not_mem_nil, or_false] at h
  simp [suspectAfter, h]

theorem suspectAfter_of_ping {p : Plan} {code : OutCode} (s : State)
    (h : p.ping = true ∧ code ∈ [OutCode.ok, .deviceFault]) : suspectAfter p s code = false := by
  obtain ⟨hping, hcode⟩ := h
  simp only [List.mem_cons, List.not_mem_nil, or_false] at hcode
  obtain rfl | rfl := hcode <;> simp [suspectAfter, hping]

theorem suspectAfter_of_neither {p : Plan} {s : State} {code : OutCode}
    (hset : ¬(s.acc.isSome = true ∧ code ∈ [OutCode.malformed, .checksumMismatch]))
    (hcleared : ¬(p.ping = true ∧ code ∈ [OutCode.ok, .deviceFault])) : suspectAfter p s code = s.busSuspect := by
  simp only [List.mem_cons, List.not_mem_nil, or_false] at hset hcleared
  simp [suspectAfter, hset, hcleared]

/-- Without a slot or without a valid result COMMIT leaves the session table alone (R32). -/
theorem commitPhase_slots_kept {p : Plan} {s : State}
    (h : p.slot = none ∨ ∀ src err params, s.dec ≠ some (.valid src err params)) :
    (commitPhase p s).slots = s.slots := by
  obtain hkept | ⟨k, src, err, params, hslot, hdec, -⟩ := commitPhase_slots_cases p s
  · exact hkept
  · obtain hnone | hinvalid := h
    · simp [hnone] at hslot
    · exact absurd hdec (hinvalid src err params)

/-- Settles O48: each result field by its own lemma, the memory by the three stores into disjoint buffers. -/
theorem commitWritesEveryResult : Obligations.CommitWritesEveryResult := by
  intro i s code d params hphase hpend hframe hrx hparams hpayload
  have houtcome := pendingOutcome_of_pend hpend
  have hsuspect : (commitPhase (planOf i s) s).busSuspect = suspectAfter (planOf i s) s code := by
    rw [commitPhase_busSuspect, houtcome]
  refine ⟨commitPhase (planOf i s) s, exec_commit i hphase, rfl, rfl, ?_, ?_, fun f hf => ?_, fun hf => ?_,
    fun b hb => ?_, fun hb => ?_, fun src err hdec => ?_, fun hinvalid => ?_, fun k src err hslot hdec => ?_,
    fun hkept => ?_, fun hset => ?_, fun hcleared => ?_, fun hset hcleared => ?_,
    commitPhase_byteAt _ hframe hrx hparams hpayload, commitPhase_resultsOnly _ s⟩
  · rw [commitPhase_outcome, houtcome]
  · rw [commitPhase_detail, houtcome]
  · rw [commitPhase_txLen_eq, hf, Option.elim_some]
  · rw [commitPhase_txLen_eq, hf, Option.elim_none]
  · rw [commitPhase_rxRawLen_eq, hb, Option.elim_some]
  · rw [commitPhase_rxRawLen_eq, hb, Option.elim_none]
  · obtain ⟨hsrc, herr, hplen, hrsvd, -⟩ := commitPhase_of_valid (planOf i s) hdec
    exact ⟨hsrc, herr, hplen, hrsvd⟩
  · exact commitPhase_of_invalid (planOf i s) hinvalid
  · obtain ⟨-, -, -, -, hslots⟩ := commitPhase_of_valid (planOf i s) hdec
    rw [hslots, ← slotOf_eq_plan_slot, hslot, Option.elim_some]
  · exact commitPhase_slots_kept (slotOf_eq_plan_slot i s ▸ hkept)
  · rw [hsuspect, suspectAfter_of_framing _ hset]
  · rw [← plan_ping_iff i s] at hcleared
    rw [hsuspect, suspectAfter_of_ping s hcleared]
  · rw [← plan_ping_iff i s] at hcleared
    rw [hsuspect, suspectAfter_of_neither hset hcleared]

end Sys2Proof.Proofs
end

section
/-! The command DECODE from its start to its end (O35): CHECK, BUILD, which does the work of the DECODE phase, and
COMMIT. -/

namespace Sys2Proof.Proofs

open Sys2Proof Sys2Proof.Machine

/-! ### The phases on DECODE's path -/

theorem exec_check (i : Instr) {s : State} (h : s.phase = .check) : exec i s = .next (checkPhase (planOf i s) s) := by
  rw [exec_eq_runPhase, runPhase, h]

theorem exec_build (i : Instr) {s : State} (h : s.phase = .build) : exec i s = .next (buildPhase (planOf i s) s) := by
  rw [exec_eq_runPhase, runPhase, h]

theorem decodePhase_of_malformed {p : Plan} {s : State} {d : Detail} (h : decodeInput p s = .malformed d) :
    decodePhase p s = endWith .malformed d { s with dec := some (.malformed d) } := by
  simp only [decodePhase, h]

theorem decodePhase_of_checksumMismatch {p : Plan} {s : State} (h : decodeInput p s = .checksumMismatch) :
    decodePhase p s = endWith .checksumMismatch .zero { s with dec := some .checksumMismatch } := by
  simp only [decodePhase, h]

/-- A valid frame, when no payload length is asked for: the error byte decides (R109). -/
theorem decodePhase_of_valid {p : Plan} {s : State} {src err : Byte} {params : List Byte}
    (h : decodeInput p s = .valid src err params) (hpayload : p.payload = none) :
    decodePhase p s = endWith (replyCode err) .zero { s with dec := some (.valid src err params) } := by
  have hdiffers : payloadDiffers p params.length = false := by rw [payloadDiffers, hpayload]
  simp only [decodePhase, h, hdiffers, replyCode, anyFault, faultVector, bne_iff_ne]
  by_cases herr : err &&& 0x7F = 0
  · rw [if_neg (not_not.mpr herr), if_pos herr]
    rfl
  · rw [if_pos herr, if_neg herr]

/-- DECODE reads `RXFRAME[0..RX_RAWLEN)`, cut at the buffer's end (R125). -/
theorem decodeInput_planDecode (s : State) :
    decodeInput planDecode s =
      decodeFrame ((List.range (min s.rxRawLen.toNat 512)).map fun j => s.byteAt (0x400 + j)) s.rxRawLen.toNat := by
  simp [decodeInput, planDecode, bufferSlice, bufferByte, bufferBase, bufferSize]

/-- The parameters of a valid frame fit `RXDATA` (R117). -/
theorem params_length_of_decodeFrame_valid {buf : List Byte} {r : Nat} {src err : Byte} {params : List Byte}
    (h : decodeFrame buf r = .valid src err params) : params.length ≤ 253 := by
  have hbyte : (byteOf buf 3).toNat < 256 := (byteOf buf 3).isLt
  unfold decodeFrame at h
  split_ifs at h with hshort hheader hlength hsum
  injection h with _ _ hparams
  rw [← hparams, sliceOf, List.length_drop, List.length_take]
  omega

/-! ### COMMIT of DECODE -/

/-- COMMIT of a command that built no frame, made no Transport call and decoded no valid frame: only the outcome. -/
theorem commitPhase_endedOnly {p : Plan} {s : State} {code : OutCode} {d : Detail} (hping : p.ping = false)
    (hframe : s.frame = none) (hacc : s.acc = none) (hrx : s.rx = none)
    (hdec : ∀ src err params, s.dec ≠ some (.valid src err params)) (hpend : s.pend = some (code, d)) :
    commitPhase p s = endedOnly s code d := by
  have hresults : commitValid p (commitRx (commitFrame s)) = s := by
    rw [commitFrame, hframe, commitRx, hrx, commitValid_of_invalid p hdec]
  have hsuspect : suspectAfter p s code = s.busSuspect :=
    suspectAfter_of_neither (by simp [hacc]) (by simp [hping])
  rw [commitPhase, hresults, pendingOutcome_of_pend hpend, hsuspect, endedOnly, ← hpend]

/-- COMMIT of a command without slot, frame and Transport call that decoded a valid frame (R110). -/
theorem commitPhase_decodedOnly {p : Plan} {s : State} {code : OutCode} {d : Detail} {src err : Byte}
    {params : List Byte} (hping : p.ping = false) (hslot : p.slot = none) (hframe : s.frame = none)
    (hacc : s.acc = none) (hrx : s.rx = none) (hdec : s.dec = some (.valid src err params))
    (hpend : s.pend = some (code, d)) :
    commitPhase p s =
      { endedOnly s code d with
        rxSrcId := src, rxError := err, rxPlen := BitVec.ofNat 8 params.length
        rsvdErr := s.rsvdErr || err.getLsbD 7, ram := storeBuffer s.ram .rxdata params } := by
  have hresults : commitRx (commitFrame s) = s := by rw [commitFrame, hframe, commitRx, hrx]
  have hsuspect : suspectAfter p s code = s.busSuspect :=
    suspectAfter_of_neither (by simp [hacc]) (by simp [hping])
  rw [commitPhase, hresults, pendingOutcome_of_pend hpend, hsuspect, commitValid_of_valid p hdec, hslot, endedOnly,
    ← hpend]
  rfl

/-- DECODE's three block steps, given what its BUILD step ends in and what COMMIT makes of that. -/
theorem decode_chain (k : Nat) {s u t : State} {code : OutCode} {d : Detail} (hphase : s.phase = .check)
    (hbuild : decodePhase planDecode { s with phase := .build } = endWith code d u)
    (hcommit : commitPhase planDecode (endWith code d u) = t) : ExecChain (.decode k) 3 s t := by
  refine ⟨{ s with phase := .build }, ?_, endWith code d u, ?_, _, exec_commit (.decode k) rfl, hcommit⟩
  · rw [exec_check _ hphase]
    rfl
  · rw [exec_build (.decode k) (s := { s with phase := .build }) rfl, ← hbuild]
    exact congrArg _ (buildPhase_noFrame _ rfl)

/-- Settles O35: BUILD decodes `RXFRAME`, and COMMIT writes the answer; with no frame, call, slot or PING there is
nothing else to write. -/
theorem decodeCompletes : Obligations.DecodeCompletes := by
  rintro k s buf ⟨hphase, hframe, hacc, hrx, hdec, hpend⟩ rfl
  have hinput := decodeInput_planDecode { s with phase := .build }
  split
  case h_1 d hresult =>
    refine decode_chain k hphase (decodePhase_of_malformed (hinput.trans hresult))
      (commitPhase_endedOnly (code := .malformed) (d := d) rfl ?_ ?_ ?_ ?_ rfl)
    exacts [hframe, hacc, hrx, fun _ _ _ => nofun]
  case h_2 hresult =>
    refine decode_chain k hphase (decodePhase_of_checksumMismatch (hinput.trans hresult))
      (commitPhase_endedOnly (code := .checksumMismatch) (d := .zero) rfl ?_ ?_ ?_ ?_ rfl)
    exacts [hframe, hacc, hrx, fun _ _ _ => nofun]
  case h_3 src err params hresult =>
    have hfits : params.length ≤ 256 := (params_length_of_decodeFrame_valid hresult).trans (by decide)
    refine ⟨storeBuffer s.ram .rxdata params, memoryReads_storeBuffer .rxdata (memoryReads_byteAt s) hfits, ?_⟩
    refine decode_chain k hphase (decodePhase_of_valid (hinput.trans hresult) rfl)
      (commitPhase_decodedOnly (code := replyCode err) (d := .zero) rfl rfl ?_ ?_ ?_ rfl rfl)
    exacts [hframe, hacc, hrx]

end Sys2Proof.Proofs
end

section
/-! The host port as a whole: which addresses ignore writes, at all times or while a command runs (O22, O23), the 16-bit
registers byte by byte (O28), and what the host sees of a block step before COMMIT (O29). -/

namespace Sys2Proof.Proofs

open Sys2Proof Sys2Proof.Machine

/-! ### The address map by region -/

/-- The address map by region: a register, a field of a present slot, nothing, or a byte of a buffer (R60, R62). -/
theorem locate_cases (n : Nat) {a : Nat} (ha : a < 0x800) :
    (a < 0x040 ∧ locate n a = registerAt a) ∨
    (0x040 ≤ a ∧ a < 0x080 ∧ (a - 0x040) / 4 < n ∧
      locate n a = .slot ((a - 0x040) / 4) (slotFieldAt ((a - 0x040) % 4))) ∨
    ((0x040 ≤ a ∧ a < 0x080 ∧ n ≤ (a - 0x040) / 4 ∨ 0x080 ≤ a ∧ a < 0x100) ∧ locate n a = .reserved) ∨
    ∃ b, bufferBase b ≤ a ∧ a < bufferBase b + bufferSize b ∧ locate n a = .buffer b := by
  by_cases hregister : a < 0x040
  · exact .inl ⟨hregister, if_pos hregister⟩
  rw [locate, if_neg hregister]
  split_ifs with htable hpresent hgap htxdata htxframe hrxframe hrxdata
  · exact .inr (.inl ⟨Nat.le_of_not_lt hregister, htable, hpresent, rfl⟩)
  · exact .inr (.inr (.inl ⟨.inl ⟨Nat.le_of_not_lt hregister, htable, Nat.le_of_not_lt hpresent⟩, rfl⟩))
  · exact .inr (.inr (.inl ⟨.inr ⟨Nat.le_of_not_lt htable, hgap⟩, rfl⟩))
  · exact .inr (.inr (.inr ⟨.txdata, Nat.le_of_not_lt hgap, htxdata, rfl⟩))
  · exact .inr (.inr (.inr ⟨.txframe, Nat.le_of_not_lt htxdata, htxframe, rfl⟩))
  · exact .inr (.inr (.inr ⟨.rxframe, Nat.le_of_not_lt htxframe, hrxframe, rfl⟩))
  · exact .inr (.inr (.inr ⟨.rxdata, Nat.le_of_not_lt hrxframe, hrxdata, rfl⟩))
  · exact .inr (.inr (.inr ⟨.batch, Nat.le_of_not_lt hrxdata, ha, rfl⟩))

/-- A register's location stands at its own address only; `CMD`'s address 0 says nothing here. -/
theorem eq_registerAddress_of_locate {n a : Nat} {l : Loc} (ha : a < 0x800) (hl : registerAddress l ≠ 0)
    (h : locate n a = l) : a = registerAddress l := by
  subst h
  obtain ⟨-, h⟩ | ⟨-, -, -, h⟩ | ⟨-, h⟩ | ⟨b, -, -, h⟩ := locate_cases n ha <;> rw [h] at hl ⊢
  · exact (registerAddress_registerAt fun hreserved => hl (by rw [hreserved]; rfl)).symm
  all_goals exact absurd rfl hl

/-! ### The addresses that are blocked while busy, and the reserved ones -/

theorem blockedWhileBusy_registerAt (n : Nat) {a : Nat} (ha : a < 0x040) :
    blockedWhileBusy (registerAt a) = true ↔ BlockedAddress n a := by
  unfold registerAt BlockedAddress
  split <;> simp only [blockedWhileBusy, Bool.false_eq_true, true_iff, false_iff, true_or, or_true]
  case h_29 =>
    simp only [imp_false] at *
    omega
  all_goals omega

/-- Of a slot's four fields the host may write all but `LAST_ERROR` (R30). -/
theorem blockedWhileBusy_slotFieldAt (k : Nat) {j : Nat} (hj : j < 4) :
    blockedWhileBusy (.slot k (slotFieldAt j)) = true ↔ j ≠ 3 := by
  obtain rfl | rfl | rfl | rfl : j = 0 ∨ j = 1 ∨ j = 2 ∨ j = 3 := by omega
  all_goals simp [slotFieldAt, blockedWhileBusy]

/-- The model's blocked locations stand at exactly the addresses R70 lists. -/
theorem blockedWhileBusy_locate_iff (n : Nat) {a : Nat} (ha : a < 0x800) :
    blockedWhileBusy (locate n a) = true ↔ BlockedAddress n a := by
  obtain ⟨hregister, h⟩ | ⟨hlow, hhigh, hpresent, h⟩ | ⟨hrange, h⟩ | ⟨b, hlow, hhigh, h⟩ := locate_cases n ha <;> rw [h]
  · exact blockedWhileBusy_registerAt n hregister
  · rw [blockedWhileBusy_slotFieldAt _ (Nat.mod_lt _ (by decide)), BlockedAddress]
    omega
  · simp only [blockedWhileBusy, Bool.false_eq_true, false_iff, BlockedAddress]
    omega
  · cases b <;> simp only [bufferBase, bufferSize] at hlow hhigh <;>
      simp only [blockedWhileBusy, bufferHostWritable, Bool.false_eq_true, true_iff, false_iff, BlockedAddress] <;>
      omega

theorem registerAt_of_reservedAddress {n a : Nat} (ha : a < 0x040) (h : ReservedAddress n a) :
    registerAt a = .reserved := by
  unfold ReservedAddress at h
  unfold registerAt
  split
  case h_29 => rfl
  all_goals omega

theorem locate_of_reservedAddress {n a : Nat} (h : ReservedAddress n a) : locate n a = .reserved := by
  have ha : a < 0x100 := by unfold ReservedAddress at h; omega
  obtain ⟨hregister, hl⟩ | ⟨hlow, hhigh, hpresent, hl⟩ | ⟨-, hl⟩ | ⟨b, hlow, -, -⟩ :=
    locate_cases n (a := a) (by omega)
  · rw [hl, registerAt_of_reservedAddress hregister h]
  · unfold ReservedAddress at h; omega
  · exact hl
  · cases b <;> simp only [bufferBase] at hlow <;> omega

/-! ### Host writes that are ignored -/

/-- What is neither blocked while busy nor `STATUS` nor `CTRL` cannot be written at all (R61, R62, R70). -/
theorem writeLoc_ignored {l : Loc} (a : Nat) (d : Byte) (s : State) (hfree : blockedWhileBusy l = false)
    (hstatus : l ≠ .status) (hctrl : l ≠ .ctrl) : writeLoc l a d s = s := by
  cases l
  case status => exact absurd rfl hstatus
  case ctrl => exact absurd rfl hctrl
  case slot k f =>
    cases f
    case lastError => simp only [writeLoc, writeSlotField_lastError, List.modify_id]
    all_goals cases hfree
  case buffer b =>
    have hb : bufferHostWritable b = false := hfree
    simp [writeLoc, hb]
  all_goals first | rfl | cases hfree

/-- Outside the addresses R70 lists, `STATUS` and `CTRL`, a host write changes nothing at any time. -/
theorem hostWrite_ignored {a : Addr} (d : Byte) {s : State} (hfree : ¬ BlockedAddress s.nsess a.toNat)
    (hstatus : a ≠ 0x001) (hctrl : a ≠ 0x004) : hostWrite a d s = s := by
  rw [← blockedWhileBusy_locate_iff _ a.isLt, Bool.not_eq_true] at hfree
  obtain ⟨-, h⟩ | ⟨-, -, hblocked, -⟩ | ⟨-, -, h⟩ := hostWrite_cases a d s
  · exact h
  · simp [hfree] at hblocked
  · rw [h]
    refine writeLoc_ignored _ d s hfree (fun hl => hstatus ?_) (fun hl => hctrl ?_)
    · exact BitVec.eq_of_toNat_eq (eq_registerAddress_of_locate (l := .status) a.isLt (by decide) hl)
    · exact BitVec.eq_of_toNat_eq (eq_registerAddress_of_locate (l := .ctrl) a.isLt (by decide) hl)

theorem hostWrite_blocked {a : Addr} (d : Byte) {s : State} (hrst : s.rst = false) (hbusy : s.phase ≠ .idle)
    (h : BlockedAddress s.nsess a.toNat) : hostWrite a d s = { s with overrun := true } := by
  rw [hostWrite, hrst, (busy_iff s).mpr hbusy, (blockedWhileBusy_locate_iff _ a.isLt).mpr h]
  rfl

/-- Settles O22: the listed addresses are the blocked locations, `STATUS` and `CTRL` are never blocked, and nothing else
can be written. -/
theorem busyWritesAreBlocked : Obligations.BusyWritesAreBlocked := by
  intro s a d hrst hbusy
  refine ⟨hostWrite_blocked d hrst hbusy, ?_, ?_, hostWrite_ignored d⟩
  · rintro rfl
    exact hostWrite_status d hrst
  · rintro rfl
    exact hostWrite_ctrl d hrst

/-- No read-only or reserved address is one of those whose writes have an effect. -/
theorem hostWrite_of_unwritable {a : Addr} (d : Byte) {s : State}
    (h : ReadOnlyAddress s.nsess a.toNat ∨ ReservedAddress s.nsess a.toNat) : hostWrite a d s = s := by
  unfold ReadOnlyAddress ReservedAddress at h
  refine hostWrite_ignored d ?_ ?_ ?_
  · unfold BlockedAddress
    omega
  · rintro rfl
    simp at h
  · rintro rfl
    simp at h

/-- Settles O23: an address that R60 lists as read-only or R62 as reserved has no write effect, and a reserved one no
location. -/
theorem readOnlyAndReservedIgnoreWrites : Obligations.ReadOnlyAndReservedIgnoreWrites := by
  refine fun s a d => ⟨fun h => hostWrite_of_unwritable d (.inl h), fun h => ⟨hostWrite_of_unwritable d (.inr h), ?_⟩⟩
  rw [hostRead, locate_of_reservedAddress h]
  rfl

/-! ### The 16-bit registers -/

theorem lowByte_toNat (v : Half) : (lowByte v).toNat = v.toNat % 256 := by
  rw [lowByte, BitVec.toNat_ofNat]
  omega

theorem highByte_toNat (v : Half) : (highByte v).toNat = v.toNat / 256 := by
  have h := v.isLt
  rw [highByte, BitVec.toNat_ofNat]
  omega

theorem hostWrite_regLimitLo {s : State} (d : Byte) (hrst : s.rst = false) (hidle : s.phase = .idle) :
    hostWrite 0x00E d s = { s with inp := { s.inp with regLimit := joinBytes d (highByte s.inp.regLimit) } } :=
  hostWrite_accepted (l := .regLimitLo) d rfl hrst (.inl hidle)

theorem hostWrite_regLimitHi {s : State} (d : Byte) (hrst : s.rst = false) (hidle : s.phase = .idle) :
    hostWrite 0x00F d s = { s with inp := { s.inp with regLimit := joinBytes (lowByte s.inp.regLimit) d } } :=
  hostWrite_accepted (l := .regLimitHi) d rfl hrst (.inl hidle)

theorem hostWrite_rxRawLenLo {s : State} (d : Byte) (hrst : s.rst = false) (hidle : s.phase = .idle) :
    hostWrite 0x016 d s = { s with rxRawLen := joinBytes d (highByte s.rxRawLen) } :=
  hostWrite_accepted (l := .rxRawLenLo) d rfl hrst (.inl hidle)

theorem hostWrite_rxRawLenHi {s : State} (d : Byte) (hrst : s.rst = false) (hidle : s.phase = .idle) :
    hostWrite 0x017 d s = { s with rxRawLen := joinBytes (lowByte s.rxRawLen) d } :=
  hostWrite_accepted (l := .rxRawLenHi) d rfl hrst (.inl hidle)

theorem hostWrite16_regLimit {s : State} (v : Half) (hrst : s.rst = false) (hidle : s.phase = .idle) :
    hostWrite16 0x00E v s = { s with inp := { s.inp with regLimit := v } } := by
  have hnext : (0x00E : Addr) + 1 = 0x00F := rfl
  rw [hostWrite16, hnext, hostWrite_regLimitLo _ hrst hidle, hostWrite_regLimitHi]
  · simp only [lowByte_joinBytes, joinBytes_halves]
  · exact hrst
  · exact hidle

theorem hostWrite16_rxRawLen {s : State} (v : Half) (hrst : s.rst = false) (hidle : s.phase = .idle) :
    hostWrite16 0x016 v s = { s with rxRawLen := v } := by
  have hnext : (0x016 : Addr) + 1 = 0x017 := rfl
  rw [hostWrite16, hnext, hostWrite_rxRawLenLo _ hrst hidle, hostWrite_rxRawLenHi]
  · simp only [lowByte_joinBytes, joinBytes_halves]
  · exact hrst
  · exact hidle

/-- Settles O28: each half is a location of its own, and the halves of a value join to it again. -/
theorem halfRegistersLittleEndian : Obligations.HalfRegistersLittleEndian := by
  intro s v hrst hidle
  refine ⟨hostWrite16_regLimit v hrst hidle, hostWrite16_rxRawLen v hrst hidle, ?_, joinBytes_halves s.inp.regLimit,
    joinBytes_halves s.rxRawLen, joinBytes_halves s.txLen⟩
  rw [hostWrite_regLimitLo _ hrst hidle, joinBytes_toNat, highByte_toNat, lowByte_toNat]

/-! ### What the host sees of a running command -/

/-- A Transport call that hangs stays in its phase, and every other block step before COMMIT goes on to a phase of the
command (R25). -/
theorem exec_stays_busy {i : Instr} {s t : State} (hbusy : s.phase ≠ .idle) (hcommit : s.phase ≠ .commit)
    (h : exec i s = .next t) : t.phase ≠ .idle := by
  rw [exec_eq_runPhase] at h
  obtain ⟨hp, -⟩ | ⟨-, rfl⟩ | ⟨-, rfl⟩ | ⟨-, rfl⟩ | ⟨-, rfl⟩ | ⟨-, rfl⟩ | ⟨hp, -⟩ := runPhase_cases h
  case inl => exact absurd hp hbusy
  · obtain ⟨c, d, -, h⟩ | ⟨-, -, h⟩ | ⟨-, -, h⟩ := checkPhase_cases (planOf i s) s <;> rw [h] <;> exact nofun
  · obtain ⟨-, c, d, h⟩ | ⟨f, -, -, h⟩ | ⟨f, -, -, h⟩ := buildPhase_cases (planOf i s) s <;> rw [h] <;> exact nofun
  · obtain ⟨-, h⟩ | ⟨a, u, -, ⟨-, h⟩ | ⟨-, -, h⟩ | ⟨-, -, h⟩⟩ := txPhase_cases (planOf i s) s <;> rw [h]
    · exact hbusy
    all_goals exact nofun
  · obtain ⟨-, h⟩ | ⟨bytes, u, -, ⟨-, h⟩ | ⟨-, h⟩⟩ := rxPhase_cases (planOf i s) s <;> rw [h]
    · exact hbusy
    all_goals exact nofun
  · obtain ⟨c, d, h⟩ := decodePhase_ends (planOf i s) s
    rw [h]
    exact nofun
  · exact absurd hp hcommit

theorem SequencerOnly.irq {s t : State} (h : SequencerOnly s t) : irq t = irq s := by
  unfold SequencerOnly at h; rw [h]; rfl

theorem SequencerOnly.faultLine {s t : State} (h : SequencerOnly s t) (k : FaultKind) :
    faultLine t k = faultLine s k := by
  unfold SequencerOnly at h; rw [h]; rfl

/-- Of phase, latches and Transport the host port shows only whether the block is busy (R71). -/
theorem SequencerOnly.readLoc {s t : State} (h : SequencerOnly s t) (hbusy : t.busy = s.busy) (l : Loc) (a : Nat) :
    readLoc l a t = readLoc l a s := by
  unfold SequencerOnly at h
  cases l
  case status =>
    show statusByte t = statusByte s
    rw [statusByte, hbusy, h]
    rfl
  all_goals rw [h]; rfl

theorem SequencerOnly.hostRead {s t : State} (h : SequencerOnly s t) (hbusy : t.busy = s.busy) (a : Addr) :
    hostRead a t = hostRead a s := by
  simp only [Machine.hostRead, State.nsess, h.slots, h.readLoc hbusy]

/-- Settles O29: a block step before COMMIT changes only phase, latches and Transport, and the block stays busy. -/
theorem hostViewChangesOnlyAtCommit : Obligations.HostViewChangesOnlyAtCommit := by
  intro i s t hrunning hcommit h
  obtain ⟨hp, -⟩ | hseq := exec_commit_or_sequencerOnly h
  · exact absurd hp hcommit
  · have hbusy : t.busy = s.busy :=
      ((busy_iff t).mpr (exec_stays_busy hrunning hcommit h)).trans ((busy_iff s).mpr hrunning).symm
    exact ⟨hseq.hostRead hbusy, hseq.irq, hseq.faultLine⟩

end Sys2Proof.Proofs
end

section
/-! Packets and command words: the layout of an encoded frame (O9), the frames the decoder accepts (O11), and six
command words written out (O3). -/

namespace Sys2Proof.Proofs

open Sys2Proof Sys2Proof.Machine

/-- Settles O3: the decoder reads `OP` and `SLOT` off the two halves of each word. -/
theorem writtenWordsDecode : Obligations.WrittenWordsDecode := ⟨rfl, rfl, rfl, rfl, rfl, rfl⟩

/-! ### The encoder -/

theorem encodeFrame_eq (id code : Byte) (params : List Byte) :
    encodeFrame id code params =
      0xFF :: 0xFF :: id :: BitVec.ofNat 8 (params.length + 2) :: code ::
        (params ++ [checksum (frameBody id code params)]) := rfl

@[simp] theorem length_encodeFrame (id code : Byte) (params : List Byte) :
    (encodeFrame id code params).length = params.length + 6 := by
  rw [encodeFrame_eq]
  simp

/-- The length byte holds `n + 2`, and fits, for `n <= 253` (R87). -/
theorem toNat_lengthByte {n : Nat} (h : n ≤ 253) : (BitVec.ofNat 8 (n + 2)).toNat = n + 2 := by
  rw [BitVec.toNat_ofNat]
  omega

theorem lengthByte_eq_iff (b : Byte) (n : Nat) :
    b.toNat = n + 2 ↔ b = BitVec.ofNat 8 (n + 2) ∧ n ≤ 253 := by
  have hb : b.toNat < 256 := b.isLt
  rw [← BitVec.toNat_inj, BitVec.toNat_ofNat]
  omega

/-! ### Packets by their parts -/

/-- Six bytes or more are five leading bytes, a middle and a last byte. -/
theorem exists_packet_parts {w : List Byte} (h : 6 ≤ w.length) :
    ∃ b0 b1 src len err params ck, w = b0 :: b1 :: src :: len :: err :: (params ++ [ck]) := by
  match w with
  | b0 :: b1 :: src :: len :: err :: b5 :: rest =>
    exact ⟨b0, b1, src, len, err, _, _,
      congrArg (b0 :: b1 :: src :: len :: err :: ·) (List.dropLast_concat_getLast (List.cons_ne_nil b5 rest)).symm⟩

section
variable (b0 b1 src len err ck : Byte) (params : List Byte)

theorem sliceOf_packet_params :
    sliceOf (b0 :: b1 :: src :: len :: err :: (params ++ [ck])) 5 (params.length + 5) = params := by
  simp [sliceOf]

theorem sliceOf_packet_body :
    sliceOf (b0 :: b1 :: src :: len :: err :: (params ++ [ck])) 2 (params.length + 5) =
      src :: len :: err :: params := by
  simp [sliceOf]

theorem byteOf_packet_last :
    byteOf (b0 :: b1 :: src :: len :: err :: (params ++ [ck])) (params.length + 5) = ck := by
  simp [byteOf, List.getD_eq_getElem?_getD]

/-- The decoder on a packet given by its parts: the tests of R117 that are left when six bytes are there. -/
theorem decodeFrame_packet :
    decodeFrame (b0 :: b1 :: src :: len :: err :: (params ++ [ck])) (params.length + 6) =
      if b0 ≠ 0xFF ∨ b1 ≠ 0xFF then .malformed .header
      else if len.toNat ≠ params.length + 2 then .malformed .length
      else if ck ≠ checksum (src :: len :: err :: params) then .checksumMismatch
      else .valid src err params := by
  have hlast : params.length + 6 - 1 = params.length + 5 := rfl
  have hlength : len.toNat + 4 ≠ params.length + 6 ↔ len.toNat ≠ params.length + 2 := by omega
  rw [decodeFrame, if_neg (by omega), hlast, byteOf_packet_last, sliceOf_packet_body, sliceOf_packet_params]
  simp only [byteOf, List.getD_cons_zero, List.getD_cons_succ, hlength]

theorem packet_eq_encodeFrame_iff (id code : Byte) (xs : List Byte) :
    b0 :: b1 :: src :: len :: err :: (params ++ [ck]) = encodeFrame id code xs ↔
      b0 = 0xFF ∧ b1 = 0xFF ∧ src = id ∧ len = BitVec.ofNat 8 (xs.length + 2) ∧ err = code ∧ params = xs ∧
        ck = checksum (frameBody id code xs) := by
  rw [encodeFrame_eq]
  simp only [List.cons.injEq, List.append_singleton_inj]

end

/-- Settles O9: the parts of the frame stand where the encoder puts them, and equal frames have equal parts. -/
theorem encodedFrameLayout : Obligations.EncodedFrameLayout := by
  refine ⟨fun id code params hfits => ?_, fun id code id' code' params params' heq => ?_⟩
  · have hlast : params.length + 6 - 1 = params.length + 5 := rfl
    have hlen := toNat_lengthByte hfits
    dsimp only
    rw [length_encodeFrame, hlast, encodeFrame_eq, sliceOf_packet_params, byteOf_packet_last, sliceOf_packet_body]
    exact ⟨rfl, rfl, rfl, rfl, hlen, congrArg (· + 4) hlen, rfl, rfl, rfl⟩
  · obtain ⟨-, -, hid, -, hcode, hparams, -⟩ := (packet_eq_encodeFrame_iff ..).mp ((encodeFrame_eq ..).symm.trans heq)
    exact ⟨hid, hcode, hparams⟩

/-! ### The frames the decoder accepts -/

theorem byteOf_take {buf : List Byte} {r i : Nat} (h : i < r) : byteOf (buf.take r) i = byteOf buf i := by
  simp [byteOf, List.getD_eq_getElem?_getD, List.getElem?_take_of_lt h]

theorem sliceOf_take {buf : List Byte} {r j : Nat} (i : Nat) (h : j ≤ r) :
    sliceOf (buf.take r) i j = sliceOf buf i j := by
  rw [sliceOf, List.take_take, Nat.min_eq_left h, sliceOf]

/-- The decoder looks at the first `r` bytes only. -/
theorem decodeFrame_take (buf : List Byte) (r : Nat) : decodeFrame (buf.take r) r = decodeFrame buf r := by
  unfold decodeFrame
  by_cases hshort : r < 6
  · rw [if_pos hshort, if_pos hshort]
  · simp (disch := omega) only [byteOf_take, sliceOf_take]

theorem decodeFrame_of_short {buf : List Byte} {r : Nat} (h : r < 6) : decodeFrame buf r = .malformed .short :=
  if_pos h

/-- Decoding a whole packet is valid exactly when the packet is the frame of its own fields. -/
theorem decodeFrame_length_eq_valid_iff (w : List Byte) (src err : Byte) (params : List Byte) :
    decodeFrame w w.length = .valid src err params ↔ w = encodeFrame src err params ∧ params.length ≤ 253 := by
  by_cases hshort : w.length < 6
  · rw [decodeFrame_of_short hshort]
    refine iff_of_false nofun ?_
    rintro ⟨rfl, -⟩
    simp at hshort
  · obtain ⟨b0, b1, src', len, err', params', ck, rfl⟩ := exists_packet_parts (Nat.le_of_not_lt hshort)
    have hlength : (b0 :: b1 :: src' :: len :: err' :: (params' ++ [ck])).length = params'.length + 6 := by simp
    rw [hlength, decodeFrame_packet, packet_eq_encodeFrame_iff]
    constructor
    · intro h
      split_ifs at h with hheader hlen hsum
      simp only [FrameResult.valid.injEq] at h
      obtain ⟨rfl, rfl, rfl⟩ := h
      simp only [not_or, not_not] at hheader hlen hsum
      obtain ⟨rfl, hfits⟩ := (lengthByte_eq_iff ..).mp hlen
      exact ⟨⟨hheader.1, hheader.2, rfl, rfl, rfl, rfl, hsum⟩, hfits⟩
    · rintro ⟨⟨rfl, rfl, rfl, rfl, rfl, rfl, rfl⟩, hfits⟩
      rw [if_neg (by simp), if_neg (not_not.mpr (toNat_lengthByte hfits))]
      exact if_neg (not_not.mpr rfl)

/-- Settles O11: the first `r` bytes are a packet of their own, which decodes as valid when it is the frame of what it
decodes to. -/
theorem decoderAcceptsExactlyFrames : Obligations.DecoderAcceptsExactlyFrames := by
  intro buf r src err params hr
  have hpacket := decodeFrame_length_eq_valid_iff (buf.take r) src err params
  rwa [List.length_take_of_le hr, decodeFrame_take] at hpacket

end Sys2Proof.Proofs
end

section
/-! What a command puts on the bus: its plan depends on its operands only, a plan that passes CHECK builds a legal
packet, and so every frame that is built or sent is one (O57). -/

namespace Sys2Proof.Proofs

open Sys2Proof Sys2Proof.Machine

/-! ### A plan depends on the operands only -/

/-- `t` has the snapshot, the session table and the buffers of `s`. -/
def SameOperands (s t : State) : Prop := t = { t with lat := s.lat, slots := s.slots, ram := s.ram, epoch := s.epoch }

theorem SameOperands.lat {s t : State} (h : SameOperands s t) : t.lat = s.lat := by
  unfold SameOperands at h; rw [h]

theorem SameOperands.checkRecords_eq {s t : State} (h : SameOperands s t) (v n o : Nat) :
    checkRecords t v n o = checkRecords s v n o := by
  have hbyte : bufferByte { t with lat := s.lat, slots := s.slots, ram := s.ram, epoch := s.epoch } .batch =
      bufferByte s .batch := rfl
  unfold SameOperands at h
  rw [h]
  induction n generalizing o with
  | zero => rfl
  | succ n ih => simp only [checkRecords, hbyte, ih]

theorem SameOperands.checkBatch_eq {s t : State} (h : SameOperands s t) : checkBatch t = checkBatch s := by
  unfold checkBatch
  rw [h.checkRecords_eq]
  unfold SameOperands at h
  rw [h]
  rfl

theorem SameOperands.planOf_eq {s t : State} (h : SameOperands s t) (i : Instr) : planOf i t = planOf i s := by
  have hbatch := h.checkBatch_eq
  unfold SameOperands at h
  cases i
  case syncWrite k => simp only [planOf, planSyncWrite, hbatch]; rw [h]; rfl
  all_goals rw [h]; rfl

theorem SequencerOnly.sameOperands {s t : State} (h : SequencerOnly s t) : SameOperands s t := by
  unfold SequencerOnly at h; rw [h]; rfl

theorem FlagsOnly.sameOperands {s t : State} (h : FlagsOnly s t) : SameOperands s t := by
  unfold FlagsOnly at h; rw [h]; rfl

/-! ### What passes CHECK builds a legal packet -/

theorem length_bufferSlice (s : State) (b : Buffer) (i j : Nat) :
    (bufferSlice s b i j).length = min j (bufferSize b) - i := by
  simp [bufferSlice]

/-- A running slot command on an existing slot addresses an id in 0..253 (R31, R42). -/
theorem slotId_le_of_lt_nsess {s : State} (hslots : SlotsLegal s) (hlat : LatchCurrent s) (hbusy : s.phase ≠ .idle)
    (hk : (decodeCmd s.lat.inp.cmd).slot < s.nsess) : s.lat.slotId.toNat ≤ 253 := by
  obtain ⟨-, -, hranges⟩ := (slotsLegal_iff s).mp hslots
  obtain ⟨hinp, hslot⟩ := hlat hbusy
  rw [decodeCmd, slot_commandOf, hinp] at hk
  obtain ⟨hid, -⟩ := hslot _ (List.getElem?_eq_getElem hk)
  rw [hid]
  exact (hranges _ (List.getElem_mem hk)).1

theorem legalFrame_encodeFrame {id code : Byte} {params : List Byte} (hid : id.toNat ≤ 254)
    (hparams : params.length ≤ 253) : LegalFrame (encodeFrame id code params) :=
  ⟨id, code, params, hid, hparams, rfl⟩

theorem rawPlan_frame_legal {s : State} (h : rawCheck s = none) : LegalFrame (rawFrame s) := by
  unfold rawCheck at h
  split_ifs at h with hid hcount
  refine legalFrame_encodeFrame (Nat.le_of_not_lt hid) ?_
  rw [rawParams, length_bufferSlice]
  omega

theorem readPlan_frame_legal {s : State} {k c : Nat} (h : readCheck k c s = none)
    (hid : k < s.nsess → s.lat.slotId.toNat ≤ 253) :
    LegalFrame (encodeFrame s.lat.slotId s.lat.inp.instrRead (readParams s c)) := by
  unfold readCheck at h
  split_ifs at h with hslot hcount
  exact legalFrame_encodeFrame ((hid (Nat.lt_of_not_le hslot)).trans (by decide)) (by simp [readParams])

theorem writePlan_frame_legal {s : State} {k c : Nat} (h : writeCheck k c s = none)
    (hid : k < s.nsess → s.lat.slotId.toNat ≤ 253) :
    LegalFrame (encodeFrame s.lat.slotId (writeCode s) (writeParams s c)) := by
  unfold writeCheck at h
  split_ifs at h with hslot hcount hlimit
  refine legalFrame_encodeFrame ((hid (Nat.lt_of_not_le hslot)).trans (by decide)) ?_
  rw [writeParams, List.length_cons, length_bufferSlice]
  omega

theorem planAction_frame_legal {s : State} {k : Nat} (h : (planAction k s).check = none)
    (hid : k < s.nsess → s.lat.slotId.toNat ≤ 253) :
    LegalFrame (encodeFrame (if broadcast s then 254 else s.lat.slotId) s.lat.inp.instrAction []) := by
  refine legalFrame_encodeFrame ?_ (Nat.zero_le _)
  cases hbroadcast : broadcast s with
  | true => rw [if_pos rfl]; decide
  | false =>
    have hslot : k < s.nsess := by simpa [planAction, hbroadcast] using h
    exact (hid hslot).trans (by decide)

theorem length_flatMap_le {l : List Nat} {f : Nat → List Byte} {m : Nat} (h : ∀ k ∈ l, (f k).length ≤ m) :
    (l.flatMap f).length ≤ l.length * m := by
  rw [List.length_flatMap]
  simpa using List.sum_le_card_nsmul (l.map fun k => (f k).length) m (by simpa using h)

/-- The batch check bounds the packet of a sync-write by the record count and the value count (R94, R137). -/
theorem planSyncWrite_frame_legal {s : State} (h : checkBatch s = none) :
    LegalFrame (encodeFrame 254 s.lat.inp.instrSyncWrite (syncParams s)) := by
  have hfits : 2 + count s * (1 + 2 * batchValues s) ≤ 253 := by
    by_contra hlong
    unfold checkBatch at h
    rw [if_pos (Nat.lt_of_not_le hlong)] at h
    split at h
    · cases h
    · split at h <;> cases h
  have hrecord : ∀ k ∈ List.range (count s), (batchRecord s (batchValues s) k).length ≤ 1 + 2 * batchValues s := by
    intro k _
    rw [batchRecord, List.length_cons, length_bufferSlice]
    omega
  have hrecords := length_flatMap_le hrecord
  rw [List.length_range] at hrecords
  refine legalFrame_encodeFrame (by decide) ?_
  rw [syncParams, List.length_cons, List.length_cons]
  omega

/-- A running command that passes CHECK builds a legal packet (R87, R89, R106). -/
theorem planOf_frame_legal {s : State} {f : List Byte} (hslots : SlotsLegal s) (hlat : LatchCurrent s)
    (hbusy : s.phase ≠ .idle) (hcheck : (planOf (decodeCmd s.lat.inp.cmd) s).check = none)
    (hframe : (planOf (decodeCmd s.lat.inp.cmd) s).frame = some f) : LegalFrame f := by
  have hid := slotId_le_of_lt_nsess hslots hlat hbusy
  generalize decodeCmd s.lat.inp.cmd = i at hcheck hframe hid
  cases i
  case ping k =>
    cases hframe
    simp only [planOf, planPing] at hcheck
    split_ifs at hcheck with hping
    exact legalFrame_encodeFrame (by omega) (Nat.zero_le _)
  case readBytes k => cases hframe; exact readPlan_frame_legal hcheck hid
  case readWords k => cases hframe; exact readPlan_frame_legal hcheck hid
  case writeBytes k => cases hframe; exact writePlan_frame_legal hcheck hid
  case writeWords k => cases hframe; exact writePlan_frame_legal hcheck hid
  case action k => cases hframe; exact planAction_frame_legal hcheck hid
  case syncWrite k => cases hframe; exact planSyncWrite_frame_legal hcheck
  case encode k => cases hframe; exact rawPlan_frame_legal hcheck
  case sendRaw k => cases hframe; exact rawPlan_frame_legal hcheck
  all_goals cases hframe

/-! ### CHECK passed -/

/-- A command that is about to build has a plan that goes on from CHECK to BUILD. -/
theorem checkPassed_iff (s : State) :
    CheckPassed s ↔ (s.phase = .build →
      (planOf (decodeCmd s.lat.inp.cmd) s).check = none ∧
        (planOf (decodeCmd s.lat.inp.cmd) s).endsInCheck = false) := by
  have hplan : planOf (decodeCmd s.lat.inp.cmd) { s with phase := .check } = planOf (decodeCmd s.lat.inp.cmd) s :=
    SameOperands.planOf_eq (t := { s with phase := .check }) rfl _
  refine forall_congr' fun hbuild => ?_
  have hback : { s with phase := .build } = s := by rw [← hbuild]
  rw [exec_check (s := { s with phase := .check }) _ rfl, hplan, Host.Outcome.next.injEq]
  obtain ⟨c, d, hcheck, h⟩ | ⟨-, hends, h⟩ | ⟨hcheck, hends, h⟩ :=
    checkPhase_cases (planOf (decodeCmd s.lat.inp.cmd) s) { s with phase := .check } <;> rw [h]
  · refine iff_of_false (fun heq => ?_) (fun hpass => by simp [hcheck] at hpass)
    simpa [hbuild] using congrArg State.phase heq
  · refine iff_of_false (fun heq => ?_) (fun hpass => by simp [hends] at hpass)
    simpa [hbuild] using congrArg State.phase heq
  · exact iff_of_true hback ⟨hcheck, hends⟩

theorem SameOperands.checkPassed {s t : State} (h : SameOperands s t) (hphase : t.phase = s.phase)
    (hs : CheckPassed s) : CheckPassed t := by
  rw [checkPassed_iff] at hs ⊢
  rwa [hphase, h.lat, h.planOf_eq]

/-- A block step that ends in BUILD is the CHECK step that lets the command pass. -/
theorem exec_enters_build {i : Instr} {s t : State} (h : exec i s = .next t) (hbuild : t.phase = .build) :
    s.phase = .check ∧ t = { s with phase := .build } := by
  rw [exec_eq_runPhase] at h
  obtain ⟨hp, rfl⟩ | ⟨hp, rfl⟩ | ⟨-, rfl⟩ | ⟨hp, rfl⟩ | ⟨hp, rfl⟩ | ⟨-, rfl⟩ | ⟨-, rfl⟩ := runPhase_cases h
  · simp [hp] at hbuild
  · obtain ⟨c, d, -, h⟩ | ⟨-, -, h⟩ | ⟨-, -, h⟩ := checkPhase_cases (planOf i s) s <;> rw [h] at hbuild ⊢
    · cases hbuild
    · cases hbuild
    · exact ⟨hp, rfl⟩
  · obtain ⟨-, c, d, h⟩ | ⟨f, -, -, h⟩ | ⟨f, -, -, h⟩ := buildPhase_cases (planOf i s) s <;> rw [h] at hbuild <;>
      cases hbuild
  · obtain ⟨-, h⟩ | ⟨a, u, -, ⟨-, h⟩ | ⟨-, -, h⟩ | ⟨-, -, h⟩⟩ := txPhase_cases (planOf i s) s <;> rw [h] at hbuild
    · simp [hp] at hbuild
    all_goals cases hbuild
  · obtain ⟨-, h⟩ | ⟨bytes, u, -, ⟨-, h⟩ | ⟨-, h⟩⟩ := rxPhase_cases (planOf i s) s <;> rw [h] at hbuild
    · simp [hp] at hbuild
    all_goals cases hbuild
  · obtain ⟨c, d, h⟩ := decodePhase_ends (planOf i s) s
    rw [h] at hbuild
    cases hbuild
  · cases hbuild

theorem exec_checkPassed {s t : State} (h : exec (decodeCmd s.lat.inp.cmd) s = .next t) : CheckPassed t := by
  intro hbuild
  obtain ⟨hcheck, rfl⟩ := exec_enters_build h hbuild
  have hback : { s with phase := .check } = s := by rw [← hcheck]
  exact (congrArg (exec _) hback).trans h

theorem hostWrite_checkPassed (a : Addr) (d : Byte) {s : State} (hs : CheckPassed s) :
    CheckPassed (hostWrite a d s) := by
  by_cases hidle : s.phase = .idle
  · obtain ⟨-, h⟩ | ⟨hphase, -⟩ := hostWrite_start_or_latchesKept a d s
    · rw [h]; exact nofun
    · intro hbuild
      rw [hphase, hidle] at hbuild
      cases hbuild
  · have hflags := hostWrite_flagsOnly a d hidle
    exact hflags.sameOperands.checkPassed hflags.latchesKept.1 hs

theorem Move.checkPassed {s t : State} (h : Move s t) (hs : CheckPassed s) : CheckPassed t := by
  cases h with
  | stay _ => exact hs
  | block _ _ hexec => exact exec_checkPassed hexec
  | read a => exact SameOperands.checkPassed (s := s) rfl rfl hs
  | write a d => exact hostWrite_checkPassed a d hs
  | rst level =>
    obtain h | ⟨-, -, h⟩ := setReset_cases level s <;> rw [h]
    · exact SameOperands.checkPassed (s := s) rfl rfl hs
    · exact nofun

/-! ### The frames that are built and sent -/

/-- In TX there is a frame, and the latched frame and all sent frames are legal. -/
def BusFramesLegal (s : State) : Prop :=
  (s.phase = .tx → s.frame.isSome) ∧ (∀ f, s.frame = some f → LegalFrame f) ∧
    ∀ f a, BusCall.txWrite f a ∈ s.busLog → LegalFrame f

theorem framesLegal_iff (s : State) :
    FramesLegal s ↔ SlotsLegal s ∧ LatchCurrent s ∧ CheckPassed s ∧ BusFramesLegal s := Iff.rfl

/-- No new frame, no `TxWrite`, and TX is not entered: frames stay legal. -/
theorem BusFramesLegal.of_kept {s t : State} (hs : BusFramesLegal s) (htx : t.phase = .tx → s.phase = .tx)
    (hframe : t.frame = s.frame) (hlog : ∀ f a, BusCall.txWrite f a ∈ t.busLog → BusCall.txWrite f a ∈ s.busLog) :
    BusFramesLegal t := by
  obtain ⟨hsome, hlatched, hsent⟩ := hs
  exact ⟨fun hphase => hframe ▸ hsome (htx hphase), fun f hf => hlatched f (hframe ▸ hf),
    fun f a hmem => hsent f a (hlog f a hmem)⟩

theorem checkPhase_busFramesLegal (p : Plan) {s : State} (hs : BusFramesLegal s) :
    BusFramesLegal (checkPhase p s) := by
  obtain ⟨c, d, -, h⟩ | ⟨-, -, h⟩ | ⟨-, -, h⟩ := checkPhase_cases p s <;> rw [h] <;>
    exact hs.of_kept nofun rfl fun _ _ => id

theorem buildPhase_busFramesLegal {p : Plan} {s : State} (hs : BusFramesLegal s)
    (hlegal : ∀ f, p.frame = some f → LegalFrame f) : BusFramesLegal (buildPhase p s) := by
  obtain ⟨-, c, d, h⟩ | ⟨f, hf, -, h⟩ | ⟨f, hf, -, h⟩ := buildPhase_cases p s <;> rw [h]
  · exact hs.of_kept nofun rfl fun _ _ => id
  · obtain ⟨-, -, hsent⟩ := hs
    exact ⟨fun _ => rfl, fun g hg => hlegal g (hf.trans hg), hsent⟩
  · obtain ⟨-, -, hsent⟩ := hs
    exact ⟨nofun, fun g hg => hlegal g (hf.trans hg), hsent⟩

/-- TX sends the latched frame. -/
theorem txPhase_busFramesLegal (p : Plan) {s : State} (htx : s.phase = .tx) (hs : BusFramesLegal s) :
    BusFramesLegal (txPhase p s) := by
  obtain ⟨-, h⟩ | ⟨a, t, hcall, hend⟩ := txPhase_cases p s
  · rwa [h]
  · obtain ⟨hsome, hlatched, hsent⟩ := hs
    obtain ⟨f, hf⟩ := Option.isSome_iff_exists.mp (hsome htx)
    obtain ⟨-, rest, n, rfl⟩ := txWrite_spec hcall
    have hlog : ∀ g b, BusCall.txWrite g b ∈ s.busLog ++ [.txWrite (s.frame.getD []) a] → LegalFrame g := by
      intro g b hmem
      obtain hold | hnew := List.mem_append.mp hmem
      · exact hsent g b hold
      · rw [hf, Option.getD_some, List.mem_singleton, BusCall.txWrite.injEq] at hnew
        exact hnew.1 ▸ hlatched f hf
    obtain ⟨-, h⟩ | ⟨-, -, h⟩ | ⟨-, -, h⟩ := hend <;> rw [h] <;> exact ⟨nofun, hlatched, hlog⟩

theorem rxPhase_busFramesLegal (p : Plan) {s : State} (hs : BusFramesLegal s) : BusFramesLegal (rxPhase p s) := by
  obtain ⟨-, h⟩ | ⟨bytes, t, hcall, hend⟩ := rxPhase_cases p s
  · rwa [h]
  · obtain ⟨-, rest, n, rfl⟩ := rxRead_spec hcall
    obtain ⟨-, h⟩ | ⟨-, h⟩ := hend <;> rw [h] <;>
      exact hs.of_kept nofun rfl fun _ _ hmem => (List.mem_append.mp hmem).resolve_right (by simp)

theorem exec_busFramesLegal {s t : State} (h : exec (decodeCmd s.lat.inp.cmd) s = .next t) (hs : FramesLegal s) :
    BusFramesLegal t := by
  obtain ⟨hslots, hlat, hpassed, hbus⟩ := (framesLegal_iff s).mp hs
  rw [exec_eq_runPhase] at h
  obtain ⟨-, rfl⟩ | ⟨-, rfl⟩ | ⟨hp, rfl⟩ | ⟨hp, rfl⟩ | ⟨-, rfl⟩ | ⟨-, rfl⟩ | ⟨-, rfl⟩ := runPhase_cases h
  · exact hbus
  · exact checkPhase_busFramesLegal _ hbus
  · obtain ⟨hcheck, -⟩ := (checkPassed_iff s).mp hpassed hp
    exact buildPhase_busFramesLegal hbus fun f => planOf_frame_legal hslots hlat (by simp [hp]) hcheck
  · exact txPhase_busFramesLegal _ hp hbus
  · exact rxPhase_busFramesLegal _ hbus
  · obtain ⟨c, d, h⟩ := decodePhase_ends (planOf (decodeCmd s.lat.inp.cmd) s) s
    rw [h]
    exact hbus.of_kept nofun rfl fun _ _ => id
  · exact hbus.of_kept nofun (commitPhase_frame _ s) fun _ _ => by rw [commitPhase_busLog]; exact id

theorem writeLoc_busLog (l : Loc) (a : Nat) (d : Byte) (s : State) : (writeLoc l a d s).busLog = s.busLog := by
  cases l
  case buffer b => rw [writeLoc_buffer]
  all_goals rfl

theorem hostWrite_busLog (a : Addr) (d : Byte) (s : State) : (hostWrite a d s).busLog = s.busLog :=
  hostWrite_induct (P := fun u => u.busLog = s.busLog) a rfl rfl fun l b => writeLoc_busLog l b d s

theorem hostWrite_busFramesLegal (a : Addr) (d : Byte) {s : State} (hs : BusFramesLegal s) :
    BusFramesLegal (hostWrite a d s) := by
  have hlog := hostWrite_busLog a d s
  obtain ⟨-, h⟩ | ⟨hphase, hframe, -⟩ := hostWrite_start_or_latchesKept a d s
  · obtain ⟨-, -, hsent⟩ := hs
    rw [h]
    exact ⟨nofun, nofun, hsent⟩
  · exact hs.of_kept (fun htx => hphase ▸ htx) hframe fun f b hmem => hlog ▸ hmem

theorem Move.framesLegal {s t : State} (hs : FramesLegal s) (h : Move s t) : FramesLegal t := by
  obtain ⟨hslots, hlat, hpassed, hbus⟩ := (framesLegal_iff s).mp hs
  refine (framesLegal_iff t).mpr ⟨(h.slotsLegal hslots).1, h.latchCurrent hlat, h.checkPassed hpassed, ?_⟩
  cases h with
  | stay _ => exact hbus
  | block _ _ hexec => exact exec_busFramesLegal hexec hs
  | read a => exact hbus
  | write a d => exact hostWrite_busFramesLegal a d hbus
  | rst level =>
    obtain h | ⟨-, -, h⟩ := setReset_cases level s <;> rw [h]
    · exact hbus
    · obtain ⟨-, -, hsent⟩ := hbus
      exact ⟨nofun, nofun, hsent⟩

theorem framesLegal_schedule (s : State) (rest : List Turn) (hs : FramesLegal s) :
    FramesLegal { s with schedule := rest } := by
  obtain ⟨hslots, hlat, hpassed, hbus⟩ := (framesLegal_iff s).mp hs
  exact ⟨hslots, hlat, SameOperands.checkPassed (s := s) rfl rfl hpassed, hbus⟩

/-- Settles O57: BUILD is entered only past CHECK, which bounds id and parameters, and TX sends what BUILD latched. -/
theorem framesStayLegal : Obligations.FramesStayLegal := fun _ _ hs hstep =>
  step_keeps framesLegal_schedule (fun _ _ => Move.framesLegal) hs hstep

end Sys2Proof.Proofs
end

section
/-! Commands from their start to their end: the block steps of a command whose CHECK passes, the states COMMIT leaves,
and the commands that build, send or exchange a packet (O33, O34, O36 to O41); and the RX phase (O46). -/

namespace Sys2Proof.Proofs

open Sys2Proof Sys2Proof.Machine

/-! ### The phases of a command that is not turned away -/

/-- The plan passes CHECK and has the frame `f` to build. -/
def Builds (p : Plan) (f : List Byte) : Prop := p.check = none ∧ p.endsInCheck = false ∧ p.frame = some f

theorem checkPhase_of_builds {p : Plan} {f : List Byte} (s : State) (h : Builds p f) :
    checkPhase p s = { s with phase := .build } := by
  obtain ⟨hcheck, hends, -⟩ := h
  rw [checkPhase, hcheck, hends]
  rfl

theorem buildPhase_of_builds {p : Plan} {f : List Byte} (s : State) (h : Builds p f) :
    buildPhase p s =
      if p.sends then { s with frame := some f, phase := .tx } else endWith .ok .zero { s with frame := some f } := by
  obtain ⟨-, -, hframe⟩ := h
  rw [buildPhase, hframe]

/-- A frame that the Transport takes whole goes on to RX, or ends the command when no reply is read (R107). -/
theorem txPhase_of_whole {s : State} {f : List Byte} {rest : List (Option Nat)} (p : Plan) (hframe : s.frame = some f)
    (hanswer : s.txAnswers = some f.length :: rest) :
    txPhase p s =
      let u := { s with acc := some f.length, txAnswers := rest, busLog := s.busLog ++ [.txWrite f f.length] }
      if p.reply.isSome then { u with phase := .rx } else endWith .ok .zero u := by
  have hget : s.frame.getD [] = f := by rw [hframe, Option.getD_some]
  rw [txPhase, hget, txWrite_answer hanswer le_rfl]
  dsimp only
  rw [if_neg (lt_irrefl _)]

/-- A reply within the bound goes to DECODE, and no bytes end the command (R108). -/
theorem rxPhase_of_answer {p : Plan} {s : State} {e : Nat} {bytes : List Byte} {rest : List (Option (List Byte))}
    (hreply : p.reply = some e) (hanswer : s.rxAnswers = some bytes :: rest) (hfits : bytes.length ≤ e) :
    rxPhase p s =
      let u := { s with rx := some bytes, rxAnswers := rest, busLog := s.busLog ++ [.rxRead e bytes] }
      if bytes = [] then endWith .noReply .zero u else { u with phase := .decode } := by
  rw [rxPhase, hreply, Option.getD_some, rxRead_answer hanswer hfits]
  simp only [List.length_eq_zero_iff]

theorem expectedReply_eq_plan_reply (i : Instr) (s : State) : expectedReply i s = (planOf i s).reply := by
  cases i
  case writeBytes k => simp [expectedReply, planOf, writePlan, statusExpected]
  case writeWords k => simp [expectedReply, planOf, writePlan, statusExpected]
  case action k => simp [expectedReply, planOf, planAction, statusExpected, broadcast]
  all_goals rfl

/-- Settles O46: RX asks for the plan's reply length, and an empty answer is its only failure. -/
theorem replyOrNoReply : Obligations.ReplyOrNoReply := by
  intro i s e bytes rest hrx hexpected hanswer hfits
  rw [expectedReply_eq_plan_reply] at hexpected
  rw [exec_rx i hrx, rxPhase_of_answer hexpected hanswer hfits]
  dsimp only
  split
  case isTrue hempty => rw [hempty]; rfl
  case isFalse => rfl

/-! ### From the start to COMMIT -/

/-- A block step from any state with the operands of `s` follows the plan at `s`. -/
theorem exec_of_plan {i : Instr} {s : State} {p : Plan} (u : State) (hplan : planOf i s = p) (hu : SameOperands s u) :
    exec i u = runPhase p u := by rw [exec_eq_runPhase, hu.planOf_eq, hplan]

/-- The frame `f` is built and about to be sent. -/
def sending (s : State) (f : List Byte) : State := { s with phase := .tx, frame := some f }

/-- The Transport took `f` whole. -/
def sent (s : State) (f : List Byte) (rest : List (Option Nat)) : State :=
  { sending s f with acc := some f.length, txAnswers := rest, busLog := s.busLog ++ [.txWrite f f.length] }

/-- The exchange `x` happened, and its reply is about to be decoded. -/
def received (s : State) (x : Exchange) : State :=
  { sent s x.frame x.txRest with
    phase := .decode, rx := some x.reply, rxAnswers := x.rxRest
    busLog := s.busLog ++ [.txWrite x.frame x.frame.length, .rxRead x.expected x.reply] }

/-- The reply of `x` is decoded, and the command is about to commit `code` and `d`. -/
def exchanged (s : State) (x : Exchange) (code : OutCode) (d : Detail) : State :=
  endWith code d { received s x with dec := some (.valid x.src x.err x.params) }

section
variable {i : Instr} {s : State} {p : Plan} {f : List Byte}

theorem exec_check_of_builds (hplan : planOf i s = p) (hbuilds : Builds p f) (hphase : s.phase = .check) :
    exec i s = .next { s with phase := .build } := by
  rw [exec_of_plan s hplan rfl, runPhase, hphase]
  exact congrArg _ (checkPhase_of_builds s hbuilds)

theorem exec_build_of_builds (hplan : planOf i s = p) (hbuilds : Builds p f) :
    exec i { s with phase := .build } =
      .next (if p.sends then sending s f else endWith .ok .zero { s with phase := .build, frame := some f }) :=
  (exec_of_plan { s with phase := .build } hplan rfl).trans (congrArg _ (buildPhase_of_builds _ hbuilds))

theorem exec_tx_of_whole {rest : List (Option Nat)} (hplan : planOf i s = p)
    (hanswer : s.txAnswers = some f.length :: rest) :
    exec i (sending s f) =
      .next (if p.reply.isSome then { sent s f rest with phase := .rx } else endWith .ok .zero (sent s f rest)) :=
  (exec_of_plan (sending s f) hplan rfl).trans (congrArg _ (txPhase_of_whole (s := sending s f) p rfl hanswer))

/-- A command that sends is in TX after two steps. -/
theorem send_chain {n : Nat} {t : State} (hplan : planOf i s = p) (hbuilds : Builds p f) (hsends : p.sends = true)
    (hphase : s.phase = .check) (hrest : ExecChain i n (sending s f) t) : ExecChain i (n + 2) s t :=
  ⟨_, exec_check_of_builds hplan hbuilds hphase, sending s f,
    (exec_build_of_builds hplan hbuilds).trans (congrArg _ (if_pos hsends)), hrest⟩

end

/-! ### COMMIT without a reply -/

theorem commitFrame_of_frame {s : State} {f : List Byte} (h : s.frame = some f) :
    commitFrame s = { s with ram := storeBuffer s.ram .txframe f, txLen := BitVec.ofNat 16 f.length } := by
  simp only [commitFrame, h]

theorem commitRx_of_none {s : State} (h : s.rx = none) : commitRx s = s := by
  simp only [commitRx, h]

/-- COMMIT of a command that built `f`, read nothing and ends OK (R110). -/
theorem commitPhase_builtOnly {p : Plan} {u : State} {f : List Byte} (hping : p.ping = false)
    (hframe : u.frame = some f) (hrx : u.rx = none) (hdec : u.dec = none) (hpend : u.pend = some (.ok, .zero)) :
    commitPhase p u = builtOnly u f (storeBuffer u.ram .txframe f) := by
  have hresults : commitValid p (commitRx (commitFrame u)) =
      { u with ram := storeBuffer u.ram .txframe f, txLen := BitVec.ofNat 16 f.length } := by
    rw [commitRx_of_none ((commitFrame_rx u).trans hrx), commitValid_of_invalid p (by simp [hdec]),
      commitFrame_of_frame hframe]
  have hsuspect : suspectAfter p u .ok = u.busSuspect :=
    suspectAfter_of_neither (by simp) (by simp [hping])
  rw [commitPhase, hresults, pendingOutcome_of_pend hpend, hsuspect, builtOnly, endedOnly, ← hpend, ← hframe]

theorem memoryReads_txframe (s : State) {f : List Byte} (hfits : f.length ≤ 512) :
    MemoryReads (storeBuffer s.ram .txframe f) s.epoch (overlay 0x200 f s.byteAt) :=
  memoryReads_storeBuffer .txframe (memoryReads_byteAt s) hfits

section
variable {i : Instr} {s : State} {p : Plan} {f : List Byte}

/-- A command that builds and does not send: CHECK, BUILD, COMMIT. -/
theorem built_chain (hs : Started s) (hplan : planOf i s = p) (hbuilds : Builds p f) (hsends : p.sends = false)
    (hping : p.ping = false) (hfits : f.length ≤ 512) :
    ∃ m, MemoryReads m s.epoch (overlay 0x200 f s.byteAt) ∧ ExecChain i 3 s (builtOnly s f m) := by
  obtain ⟨hphase, -, -, hrx, hdec, -⟩ := hs
  refine ⟨_, memoryReads_txframe s hfits, _, exec_check_of_builds hplan hbuilds hphase,
    endWith .ok .zero { s with phase := .build, frame := some f }, ?_, _,
    exec_of_plan (endWith .ok .zero { s with phase := .build, frame := some f }) hplan rfl,
    commitPhase_builtOnly hping rfl hrx hdec rfl⟩
  exact (exec_build_of_builds hplan hbuilds).trans (congrArg _ (if_neg (by simp [hsends])))

/-- A command that sends and reads no reply: CHECK, BUILD, TX, COMMIT. -/
theorem sent_chain {rest : List (Option Nat)} (hs : Started s) (hplan : planOf i s = p) (hbuilds : Builds p f)
    (hsends : p.sends = true) (hreply : p.reply = none) (hping : p.ping = false) (hfits : f.length ≤ 512)
    (hanswer : s.txAnswers = some f.length :: rest) :
    ∃ m, MemoryReads m s.epoch (overlay 0x200 f s.byteAt) ∧ ExecChain i 4 s (sentOnly s f rest m) := by
  obtain ⟨hphase, -, -, hrx, hdec, -⟩ := hs
  refine ⟨_, memoryReads_txframe s hfits, send_chain hplan hbuilds hsends hphase
    ⟨endWith .ok .zero (sent s f rest), ?_, _, exec_of_plan (endWith .ok .zero (sent s f rest)) hplan rfl,
      commitPhase_builtOnly hping rfl hrx hdec rfl⟩⟩
  exact (exec_tx_of_whole hplan hanswer).trans (congrArg _ (if_neg (by simp [hreply])))

end

/-! ### COMMIT after an exchange -/

/-- The slots after a valid reply: `LAST_ERROR` of the plan's slot, if it has one (R32). -/
def slotsAfter (p : Plan) (s : State) (err : Byte) : List Slot :=
  p.slot.elim s.slots fun k => withLastError s.slots k err

theorem commitPhase_exchanged (p : Plan) (s : State) (x : Exchange) (code : OutCode) (d : Detail) :
    commitPhase p (exchanged s x code d) =
      repliedTo s x code d (suspectAfter p (exchanged s x code d) code) (slotsAfter p s x.err)
        (commitPhase p (exchanged s x code d)).ram := by
  have hdec : (commitRx (commitFrame (exchanged s x code d))).dec = some (.valid x.src x.err x.params) := rfl
  rw [commitPhase_ram, commitPhase, commitValid_of_valid p hdec, slotsAfter]
  simp only [← setLastError_eq_withLastError]
  rfl

theorem memoryReads_exchanged (p : Plan) {s : State} {x : Exchange} (code : OutCode) (d : Detail)
    (hframe : x.frame.length ≤ 512) (hreply : x.reply.length ≤ 512) (hparams : x.params.length ≤ 256) :
    MemoryReads (commitPhase p (exchanged s x code d)).ram s.epoch (exchangeBytes s x) := by
  intro a
  have hbyte := commitPhase_byteAt (s := exchanged s x code d) p hframe hreply hparams (.inr ⟨_, _, rfl⟩) a
  rwa [State.byteAt, commitPhase_epoch] at hbyte

theorem decodeInput_received {p : Plan} {s : State} {x : Exchange} (hsends : p.sends = true) (hx : x.happens s) :
    decodeInput p (received s x) = .valid x.src x.err x.params := by
  obtain ⟨-, -, -, hvalid⟩ := hx
  rw [decodeInput, if_pos hsends]
  exact hvalid

theorem reply_ne_nil_of_happens {s : State} {x : Exchange} (hx : x.happens s) : x.reply ≠ [] := by
  obtain ⟨-, -, -, hvalid⟩ := hx
  intro hnil
  rw [hnil, decodeFrame_of_short (by decide)] at hvalid
  cases hvalid

/-- A command whose exchange happens: CHECK, BUILD, TX, RX, DECODE, COMMIT. -/
theorem replied_chain {i : Instr} {s : State} {p : Plan} {x : Exchange} {code : OutCode} {d : Detail} (hs : Started s)
    (hplan : planOf i s = p) (hbuilds : Builds p x.frame) (hsends : p.sends = true)
    (hreply : p.reply = some x.expected) (hx : x.happens s) (hframe : x.frame.length ≤ 512)
    (hexpected : x.expected ≤ 512)
    (hdecode : decodePhase p (received s x) = exchanged s x code d) :
    ∃ m, MemoryReads m s.epoch (exchangeBytes s x) ∧
      ExecChain i 6 s
        (repliedTo s x code d (suspectAfter p (exchanged s x code d) code) (slotsAfter p s x.err) m) := by
  obtain ⟨hphase, -, -, -, -, -⟩ := hs
  obtain ⟨htx, hrx, hfits, hvalid⟩ := id hx
  have hparams : x.params.length ≤ 256 := (params_length_of_decodeFrame_valid hvalid).trans (by decide)
  refine ⟨_, memoryReads_exchanged p code d hframe (hfits.trans hexpected) hparams,
    send_chain hplan hbuilds hsends hphase ⟨{ sent s x.frame x.txRest with phase := .rx }, ?_, received s x, ?_,
      exchanged s x code d, ?_, _, exec_of_plan (exchanged s x code d) hplan rfl,
      commitPhase_exchanged p s x code d⟩⟩
  · exact (exec_tx_of_whole hplan htx).trans (congrArg _ (if_pos (by simp [hreply])))
  · refine (exec_of_plan { sent s x.frame x.txRest with phase := .rx } hplan rfl).trans
      (congrArg Host.Outcome.next ?_)
    refine (rxPhase_of_answer (s := { sent s x.frame x.txRest with phase := .rx }) hreply hrx hfits).trans ?_
    dsimp only
    rw [if_neg (reply_ne_nil_of_happens hx), received]
    simp only [sent, List.append_assoc, List.singleton_append]
  · exact (exec_of_plan (received s x) hplan rfl).trans (congrArg _ hdecode)

/-! ### ENCODE and SEND_RAW -/

/-- The first `n` bytes of `TXDATA`, for an `n` within the buffer. -/
theorem bufferSlice_txdata (s : State) {n : Nat} (h : n ≤ 256) : bufferSlice s .txdata 0 n = txdataBytes s n := by
  simp [bufferSlice, txdataBytes, bufferByte, bufferBase, bufferSize, Nat.min_eq_left h]

@[simp] theorem length_txdataBytes (s : State) (n : Nat) : (txdataBytes s n).length = n := by simp [txdataBytes]

theorem rawPlan_builds (sends : Bool) {s : State} (hid : s.lat.inp.cmdId.toNat ≤ 254) (hcount : count s ≤ 253) :
    Builds (rawPlan sends s) (encodeFrame s.lat.inp.cmdId s.lat.inp.cmdInstr (txdataBytes s (count s))) := by
  refine ⟨?_, rfl, ?_⟩
  · exact (if_neg (Nat.not_lt.mpr hid)).trans (if_neg (Nat.not_lt.mpr hcount))
  · rw [← bufferSlice_txdata s (by omega)]
    rfl

/-- Settles O33: ENCODE passes CHECK, and BUILD ends it. -/
theorem encodeCompletes : Obligations.EncodeCompletes := by
  rintro k n s f hs hid rfl hcount rfl
  refine built_chain hs rfl (rawPlan_builds false hid hcount) rfl rfl ?_
  rw [length_encodeFrame, length_txdataBytes]
  omega

/-- Settles O34: SEND_RAW is ENCODE with a TX phase, and expects no reply. -/
theorem sendRawCompletes : Obligations.SendRawCompletes := by
  rintro k n s f rest hs hid rfl hcount rfl hanswer
  refine sent_chain hs rfl (rawPlan_builds true hid hcount) rfl rfl rfl ?_ hanswer
  rw [length_encodeFrame, length_txdataBytes]
  omega

/-! ### What a valid reply makes of a command -/

theorem replyCode_mem (err : Byte) : replyCode err ∈ [OutCode.ok, .deviceFault] := by
  unfold replyCode
  split <;> simp

/-- A valid reply without a payload test never makes the bus suspect, and clears that for PING (R151). -/
theorem suspectAfter_replyCode (p : Plan) (s : State) (err : Byte) :
    suspectAfter p s (replyCode err) = if p.ping then false else s.busSuspect := by
  have hnot : replyCode err ∉ [OutCode.malformed, .checksumMismatch] := by
    unfold replyCode
    split <;> simp
  split
  case isTrue hping => exact suspectAfter_of_ping s ⟨hping, replyCode_mem err⟩
  case isFalse hping => exact suspectAfter_of_neither (fun h => hnot h.2) (fun h => hping h.1)

/-- A six-byte exchange whose reply is valid, for a command that asks for no payload length (R109). -/
theorem status_chain {i : Instr} {s : State} {p : Plan} {x : Exchange} (hs : Started s) (hplan : planOf i s = p)
    (hbuilds : Builds p x.frame) (hsends : p.sends = true) (hreply : p.reply = some 6) (hpayload : p.payload = none)
    (hexpected : x.expected = 6) (hx : x.happens s) (hframe : x.frame.length ≤ 512) :
    ∃ m, MemoryReads m s.epoch (exchangeBytes s x) ∧
      ExecChain i 6 s
        (repliedTo s x (replyCode x.err) .zero (if p.ping then false else s.busSuspect) (slotsAfter p s x.err) m) := by
  have hchain := replied_chain (code := replyCode x.err) (d := .zero) hs hplan hbuilds hsends
    (hexpected ▸ hreply) hx hframe (by omega) (decodePhase_of_valid (decodeInput_received hsends hx) hpayload)
  rwa [suspectAfter_replyCode] at hchain

/-! ### PING and ACTION -/

/-- The frame of a packet without parameters (R92). -/
theorem encodeFrame_nil (id code : Byte) :
    encodeFrame id code [] = [0xFF, 0xFF, id, 0x02, code, checksum [id, 0x02, code]] := rfl

theorem planPing_builds {s : State} (hid : s.lat.inp.cmdId.toNat ≤ 253) :
    Builds (planPing s) (encodeFrame s.lat.inp.cmdId s.lat.inp.instrPing []) :=
  ⟨if_neg (Nat.not_lt.mpr hid), rfl, rfl⟩

/-- Settles O36: PING passes CHECK for ids up to 253 and is no slot command. -/
theorem pingCompletes : Obligations.PingCompletes := by
  intro k s x hs hid hframe hexpected hx
  rw [← encodeFrame_nil] at hframe
  exact status_chain hs rfl (hframe ▸ planPing_builds hid) rfl rfl rfl hexpected hx (by simp [hframe])

theorem planAction_broadcast {s : State} (k : Nat) (h : broadcast s = true) :
    Builds (planAction k s) (encodeFrame 254 s.lat.inp.instrAction []) ∧ (planAction k s).reply = none := by
  simp [Builds, planAction, h]

theorem planAction_unicast {s : State} {k : Nat} (h : broadcast s = false) (hk : k < s.nsess) :
    Builds (planAction k s) (encodeFrame s.lat.slotId s.lat.inp.instrAction []) ∧
      (planAction k s).reply = (if s.lat.slotSrl = 2 then some 6 else none) ∧ (planAction k s).slot = some k := by
  simp [Builds, planAction, statusExpected, h, hk]

/-- Settles O40: a broadcast is never answered, and a unicast only at return level 2. -/
theorem actionWithoutStatusCompletes : Obligations.ActionWithoutStatusCompletes := by
  intro k s id f rest hs hkind hframe hanswer
  rw [← encodeFrame_nil] at hframe
  obtain ⟨hbuilds, hreply⟩ : Builds (planAction k s) f ∧ (planAction k s).reply = none := by
    subst hframe
    obtain ⟨hbroadcast, rfl⟩ | ⟨hunicast, hk, hlevel, rfl⟩ := hkind
    · exact planAction_broadcast k hbroadcast
    · obtain ⟨hbuilds, hreply, -⟩ := planAction_unicast hunicast hk
      exact ⟨hbuilds, hreply.trans (if_neg hlevel)⟩
  have hlength : f.length = 6 := by simp [hframe]
  exact sent_chain hs rfl hbuilds rfl hreply rfl (by omega) (hlength ▸ hanswer)

/-- Settles O41: a unicast at return level 2 is answered like a PING, and its slot takes the error byte. -/
theorem actionWithStatusCompletes : Obligations.ActionWithStatusCompletes := by
  intro k s x hs hunicast hk hlevel hframe hexpected hx
  rw [← encodeFrame_nil] at hframe
  obtain ⟨hbuilds, hreply, hslot⟩ := planAction_unicast hunicast hk
  have hchain := status_chain (i := .action k) (p := planAction k s) hs rfl (hframe ▸ hbuilds) rfl
    (hreply.trans (if_pos hlevel)) rfl hexpected hx (by simp [hframe])
  rwa [slotsAfter, hslot] at hchain

/-! ### Writes -/

/-- The frame of a write of `c` bytes (R91, R135). -/
def writeFrame (s : State) (c : Nat) : List Byte :=
  encodeFrame s.lat.slotId (if s.lat.inp.cmdFlags.getLsbD 0 then s.lat.inp.instrWrite else s.lat.inp.instrRegWrite)
    (s.lat.inp.cmdAddr :: txdataBytes s c)

theorem length_writeFrame (s : State) (c : Nat) : (writeFrame s c).length = c + 7 := by simp [writeFrame]

theorem writePlan_builds {s : State} {k c : Nat} (hk : k < s.nsess) (hc : c ≤ 252)
    (hlimit : s.lat.inp.cmdAddr.toNat + c ≤ s.lat.inp.regLimit.toNat) :
    Builds (writePlan k c s) (writeFrame s c) := by
  refine ⟨?_, rfl, ?_⟩
  · have hfits : overflowsRegisters s c = false := decide_eq_false (Nat.not_lt.mpr hlimit)
    show writeCheck k c s = none
    rw [writeCheck, if_neg (Nat.not_le.mpr hk), if_neg (by omega), if_neg (by simp [hfits])]
  · rw [writeFrame, ← bufferSlice_txdata s (by omega)]
    rfl

theorem writePlan_reply (s : State) (k c : Nat) :
    (writePlan k c s).reply = if s.lat.slotSrl = 2 then some 6 else none := by simp [writePlan, statusExpected]

theorem planOf_write {i : Instr} {k c : Nat} {s : State}
    (h : (i = .writeBytes k ∧ c = s.lat.inp.cmdCount.toNat) ∨ (i = .writeWords k ∧ c = 2 * s.lat.inp.cmdCount.toNat)) :
    planOf i s = writePlan k c s := by
  obtain ⟨rfl, rfl⟩ | ⟨rfl, rfl⟩ := h <;> rfl

/-- Settles O38: a legal write at return level 2 is answered, and its slot takes the error byte. -/
theorem writesWithStatusComplete : Obligations.WritesWithStatusComplete := by
  intro i k c s x hkind hs hk hc hlimit hlevel hframe hexpected hx
  have hbuilds : Builds (writePlan k c s) x.frame := hframe ▸ writePlan_builds hk hc hlimit
  have hlength : x.frame.length = c + 7 := hframe ▸ length_writeFrame s c
  exact status_chain hs (planOf_write hkind) hbuilds rfl ((writePlan_reply s k c).trans (if_pos hlevel)) rfl hexpected
    hx (by omega)

/-- Settles O39: a legal write below return level 2 ends when it is sent. -/
theorem writesWithoutStatusComplete : Obligations.WritesWithoutStatusComplete := by
  intro i k c s f rest hkind hs hk hc hlimit hlevel hframe hanswer
  have hbuilds : Builds (writePlan k c s) f := hframe ▸ writePlan_builds hk hc hlimit
  have hlength : f.length = c + 7 := hframe ▸ length_writeFrame s c
  exact sent_chain hs (planOf_write hkind) hbuilds rfl ((writePlan_reply s k c).trans (if_neg hlevel)) rfl (by omega)
    hanswer

/-! ### Reads -/

theorem readPlan_builds {s : State} {k c : Nat} (hk : k < s.nsess) (hc : c ≤ 253) :
    Builds (readPlan k c s)
      (encodeFrame s.lat.slotId s.lat.inp.instrRead [s.lat.inp.cmdAddr, BitVec.ofNat 8 c]) :=
  ⟨(if_neg (Nat.not_le.mpr hk)).trans (if_neg (Nat.not_lt.mpr hc)), rfl, rfl⟩

theorem planOf_read {i : Instr} {k c : Nat} {s : State}
    (h : (i = .readBytes k ∧ c = s.lat.inp.cmdCount.toNat) ∨ (i = .readWords k ∧ c = 2 * s.lat.inp.cmdCount.toNat)) :
    planOf i s = readPlan k c s := by
  obtain ⟨rfl, rfl⟩ | ⟨rfl, rfl⟩ := h <;> rfl

/-- A valid frame, when `c` bytes of payload are asked for: DEVICE_FAULT before PAYLOAD_LEN before OK (R109). -/
theorem decodePhase_of_valid_payload {p : Plan} {s : State} {src err : Byte} {params : List Byte} {c : Nat}
    (h : decodeInput p s = .valid src err params) (hpayload : p.payload = some c) :
    decodePhase p s =
      if err &&& 0x7F = 0 ∧ params.length ≠ c then
        endWith .malformed .payloadLen { s with dec := some (.valid src err params) }
      else endWith (replyCode err) .zero { s with dec := some (.valid src err params) } := by
  have hdiffers : payloadDiffers p params.length = true ↔ params.length ≠ c := by
    rw [payloadDiffers, hpayload, bne_iff_ne]
  have hfault : anyFault err = true ↔ err &&& 0x7F ≠ 0 := bne_iff_ne
  simp only [decodePhase, h, hdiffers, hfault, replyCode]
  by_cases herr : err &&& 0x7F = 0
  · simp only [herr, ne_eq, not_true_eq_false, if_false, true_and, if_true]
  · simp only [herr, ne_eq, not_false_eq_true, if_true, false_and, if_false]

/-- Settles O37: the reply is read whatever the return level, and DECODE orders the three outcomes. -/
theorem readsComplete : Obligations.ReadsComplete := by
  intro i k c s x hkind hs hk hc hframe hexpected hx
  have hbuilds : Builds (readPlan k c s) x.frame := hframe ▸ readPlan_builds hk hc
  have hdecode := decodePhase_of_valid_payload (c := c) (decodeInput_received (p := readPlan k c s) rfl hx) rfl
  have hchain := fun code d => replied_chain (code := code) (d := d) hs (planOf_read hkind) hbuilds rfl
    (hexpected ▸ rfl) hx (by simp [hframe]) (by omega)
  by_cases hpayload : x.err &&& 0x7F = 0 ∧ x.params.length ≠ c
  · rw [if_pos hpayload] at hdecode
    simp only [if_pos hpayload]
    have hread := hchain .malformed .payloadLen hdecode
    rwa [suspectAfter_of_framing _ ⟨rfl, by simp⟩] at hread
  · rw [if_neg hpayload] at hdecode
    simp only [if_neg hpayload]
    have hread := hchain (replyCode x.err) .zero hdecode
    rwa [suspectAfter_replyCode] at hread

end Sys2Proof.Proofs
end

section
/-! SYNC_WRITE: the record loop over a legal batch, the packet of one (O42), and the batches that are turned away
(O44). -/

namespace Sys2Proof.Proofs

open Sys2Proof Sys2Proof.Machine

/-! ### The record loop -/

theorem bufferByte_batch (s : State) (j : Nat) : bufferByte s .batch j = s.byteAt (0x700 + j) := rfl

/-- One turn of the loop: the tests of a record at offset `o`, in order (R137). -/
theorem checkRecords_succ (s : State) (v n o : Nat) :
    checkRecords s v (n + 1) o =
      if 256 < o + 2 ∨ 256 < o + 2 + 2 * (s.byteAt (0x700 + o + 1)).toNat then some .batchOverrun
      else if 253 < (s.byteAt (0x700 + o)).toNat then some .badId
      else if (s.byteAt (0x700 + o + 1)).toNat ≠ v then some .syncMismatch
      else checkRecords s v n (o + 2 + 2 * (s.byteAt (0x700 + o + 1)).toNat) := by
  rw [checkRecords, bufferByte_batch, bufferByte_batch, Nat.add_assoc 0x700 o 1, ite_or]

theorem batchHolds_of_succ {s : State} {n v : Nat} (h : BatchHolds s (n + 1) v) : BatchHolds s n v := by
  obtain ⟨hfits, hrecords⟩ := h
  rw [Nat.add_mul] at hfits
  exact ⟨by omega, fun k hk => hrecords k (by omega)⟩

/-- The loop passes over `n` legal records of `v` values (R101, R137). -/
theorem checkRecords_of_batchHolds {s : State} {n v : Nat} (m : Nat) (h : BatchHolds s n v) :
    checkRecords s v (n + m) 0 = checkRecords s v m (n * (2 + 2 * v)) := by
  induction n generalizing m with
  | zero => rw [Nat.zero_add, Nat.zero_mul]
  | succ n ih =>
    obtain ⟨hfits, hrecords⟩ := id h
    obtain ⟨hid, hvalues⟩ := hrecords n (Nat.lt_succ_self n)
    rw [Nat.succ_mul] at hfits ⊢
    rw [Nat.succ_add_eq_add_succ, ih (m + 1) (batchHolds_of_succ h), checkRecords_succ, hvalues, if_neg (by omega),
      if_neg (by omega), if_neg (not_not.mpr rfl), Nat.add_assoc]

/-- The first record's value count is `V_0`. -/
theorem batchValues_of_batchHolds {s : State} {n v : Nat} (hn : 1 ≤ n) (h : BatchHolds s n v) : batchValues s = v := by
  obtain ⟨-, hrecords⟩ := h
  obtain ⟨-, hvalues⟩ := hrecords 0 hn
  rwa [Nat.zero_mul] at hvalues

/-- The loop of a batch whose first `n` records are legal goes on with the other `m`. -/
theorem checkRecords_count {s : State} {n m v : Nat} (h : BatchHolds s n v) (hcount : count s = n + m) :
    checkRecords s (batchValues s) (count s) 0 = checkRecords s (batchValues s) m (n * (2 + 2 * v)) := by
  rw [hcount]
  cases n with
  | zero => rw [Nat.zero_add, Nat.zero_mul]
  | succ n =>
    rw [batchValues_of_batchHolds (Nat.succ_pos n) h]
    exact checkRecords_of_batchHolds m h

/-! ### The batch check -/

theorem checkBatch_of_empty {s : State} (h : count s = 0) : checkBatch s = some (.usageError, .syncEmpty) := if_pos h

theorem checkBatch_of_record {s : State} {d : Detail} (hcount : 0 < count s)
    (h : checkRecords s (batchValues s) (count s) 0 = some d) : checkBatch s = some (.usageError, d) := by
  rw [checkBatch, if_neg hcount.ne', h]

/-- A batch of legal records: what is left is its length and its registers (R137). -/
theorem checkBatch_of_batchHolds {s : State} {v : Nat} (hcount : 1 ≤ count s) (h : BatchHolds s (count s) v) :
    checkBatch s =
      if 253 < 2 + count s * (1 + 2 * v) then some (.usageError, .countRange)
      else if s.lat.inp.regLimit.toNat < s.lat.inp.cmdAddr.toNat + 2 * v then some (.usageError, .regOverflow)
      else none := by
  have hrecords : checkRecords s v (count s) 0 = none := checkRecords_of_batchHolds 0 h
  rw [checkBatch, if_neg (Nat.ne_of_gt hcount), batchValues_of_batchHolds hcount h, hrecords]
  simp only [overflowsRegisters, decide_eq_true_eq, gt_iff_lt]

/-! ### The packet of a legal batch -/

/-- The value bytes of a record that fits the buffer (R101). -/
theorem bufferSlice_batch (s : State) {o v : Nat} (h : o + 2 + 2 * v ≤ 256) :
    bufferSlice s .batch (o + 2) (o + 2 + 2 * v) = batchValueBytes s o v := by
  have hcount : min (o + 2 + 2 * v) 256 - (o + 2) = 2 * v := by omega
  rw [bufferSlice, bufferSize, hcount]
  simp [batchValueBytes, bufferByte_batch, Nat.add_assoc]

@[simp] theorem length_batchValueBytes (s : State) (o v : Nat) : (batchValueBytes s o v).length = 2 * v := by
  simp [batchValueBytes]

/-- Record `k < n` ends before the buffer's end. -/
theorem record_fits {n v k : Nat} (h : n * (2 + 2 * v) ≤ 256) (hk : k < n) : k * (2 + 2 * v) + 2 + 2 * v ≤ 256 := by
  have hle : (k + 1) * (2 + 2 * v) ≤ n * (2 + 2 * v) := Nat.mul_le_mul_right _ hk
  rw [Nat.succ_mul] at hle
  omega

theorem syncParams_of_batchHolds {s : State} {v : Nat} (hcount : 1 ≤ count s) (h : BatchHolds s (count s) v) :
    syncParams s = syncPacketParams s (count s) v := by
  have hrecord : ∀ k ∈ List.range (count s),
      batchRecord s v k = s.byteAt (0x700 + k * (2 + 2 * v)) :: batchValueBytes s (k * (2 + 2 * v)) v := by
    intro k hk
    obtain ⟨hfits, -⟩ := h
    rw [batchRecord, bufferByte_batch, bufferSlice_batch s (record_fits hfits (List.mem_range.mp hk))]
  rw [syncParams, batchValues_of_batchHolds hcount h, List.flatMap_congr hrecord]
  rfl

theorem length_syncPacketParams (s : State) (n v : Nat) :
    (syncPacketParams s n v).length = 2 + n * (1 + 2 * v) := by
  simp [syncPacketParams, List.length_flatMap]
  ring

theorem planSyncWrite_builds {s : State} {v : Nat} (hcount : 1 ≤ count s) (h : BatchHolds s (count s) v)
    (hfits : 2 + count s * (1 + 2 * v) ≤ 253)
    (hlimit : s.lat.inp.cmdAddr.toNat + 2 * v ≤ s.lat.inp.regLimit.toNat) :
    Builds (planSyncWrite s) (encodeFrame 254 s.lat.inp.instrSyncWrite (syncPacketParams s (count s) v)) := by
  refine ⟨?_, rfl, ?_⟩
  · show checkBatch s = none
    rw [checkBatch_of_batchHolds hcount h, if_neg (Nat.not_lt.mpr hfits), if_neg (Nat.not_lt.mpr hlimit)]
  · rw [← syncParams_of_batchHolds hcount h]
    rfl

/-- Settles O42: a legal batch passes the batch check, and its records go out as they stand. -/
theorem syncWriteCompletes : Obligations.SyncWriteCompletes := by
  rintro k n v s f rest hs rfl hn hbatch hfits hlimit rfl hanswer
  have hlength : (encodeFrame 254 s.lat.inp.instrSyncWrite
      (syncPacketParams s s.lat.inp.cmdCount.toNat v)).length = 2 + s.lat.inp.cmdCount.toNat * (1 + 2 * v) + 6 := by
    rw [length_encodeFrame, length_syncPacketParams]
  refine ⟨hlength.trans (by ring), ?_⟩
  exact sent_chain hs rfl (planSyncWrite_builds hn hbatch hfits hlimit) rfl rfl rfl (by omega) hanswer

/-! ### Batches that are turned away -/

/-- A command that fails its CHECK only reports: CHECK, COMMIT (R105, R148). -/
theorem rejected_chain {i : Instr} {s : State} {p : Plan} {code : OutCode} {d : Detail} (hs : Started s)
    (hplan : planOf i s = p) (hcheck : p.check = some (code, d)) (hping : p.ping = false) :
    ExecChain i 2 s (endedOnly s code d) := by
  obtain ⟨hphase, hframe, hacc, hrx, hdec, -⟩ := hs
  refine ⟨endWith code d s, ?_, _, exec_of_plan (endWith code d s) hplan rfl, ?_⟩
  · rw [exec_of_plan s hplan rfl, runPhase, hphase]
    simp only [checkPhase, hcheck]
  · exact commitPhase_endedOnly (s := endWith code d s) hping hframe hacc hrx (by simp [hdec]) rfl

theorem syncWrite_rejected {s : State} {d : Detail} (k : Nat) (hs : Started s)
    (h : checkBatch s = some (.usageError, d)) : ExecChain (.syncWrite k) 2 s (endedOnly s .usageError d) :=
  rejected_chain (p := planSyncWrite s) hs rfl h rfl

/-- A batch that record `n` fails, after `n` legal ones. -/
theorem syncWrite_rejected_at_record {s : State} {n v : Nat} {d : Detail} (k : Nat) (hs : Started s)
    (h : BatchHolds s n v) (hn : n < count s)
    (hrecord : ∀ m, checkRecords s (batchValues s) (m + 1) (n * (2 + 2 * v)) = some d) :
    ExecChain (.syncWrite k) 2 s (endedOnly s .usageError d) := by
  obtain ⟨m, hcount⟩ := Nat.exists_eq_add_of_lt hn
  exact syncWrite_rejected k hs
    (checkBatch_of_record (Nat.zero_lt_of_lt hn) ((checkRecords_count h hcount).trans (hrecord m)))

/-- Settles O44: the loop reaches the failing record, whose tests come in the order of R137; a batch without one goes on
to the tests of the whole. -/
theorem syncWriteRejections : Obligations.SyncWriteRejections := by
  intro k n v s hs
  refine ⟨fun hzero => ?_, fun h hn hoffset => ?_, fun h hn hoffset hrun => ?_, fun h hn hrun hid => ?_,
    fun h hfirst hn hrun hid hvalues => ?_, fun h hfirst hn hlong => ?_, fun h hfirst hn hfits hlimit => ?_⟩
  · refine syncWrite_rejected k hs (checkBatch_of_empty ?_)
    rw [count, hzero]
    rfl
  · refine syncWrite_rejected_at_record k hs h hn fun m => ?_
    rw [checkRecords_succ, if_pos (.inl hoffset)]
  · refine syncWrite_rejected_at_record k hs h hn fun m => ?_
    rw [checkRecords_succ, if_pos (.inr hrun)]
  · refine syncWrite_rejected_at_record k hs h hn fun m => ?_
    rw [checkRecords_succ, if_neg (by omega), if_pos hid]
  · refine syncWrite_rejected_at_record k hs h hn fun m => ?_
    rw [checkRecords_succ, if_neg (by omega), if_neg (Nat.not_lt.mpr hid), batchValues_of_batchHolds hfirst h,
      if_pos hvalues]
  · subst hn
    refine syncWrite_rejected k hs ?_
    rw [checkBatch_of_batchHolds hfirst h]
    exact if_pos hlong
  · subst hn
    refine syncWrite_rejected k hs ?_
    rw [checkBatch_of_batchHolds hfirst h, if_pos hlimit]
    exact if_neg (Nat.not_lt.mpr hfits)

end Sys2Proof.Proofs
end

section
/-! The sequencer: commands that end in CHECK (O31, O32, O43), the TX phase (O45), a reply that is no valid frame (O47),
and what changes `BUS_SUSPECT` (O50). -/

namespace Sys2Proof.Proofs

open Sys2Proof Sys2Proof.Machine

/-! ### Commands that end in CHECK -/

/-- COMMIT asks whether the command is PING only when it ends OK or DEVICE_FAULT (R151). -/
theorem commitPhase_without_ping {s : State} {code : OutCode} {d : Detail} (p : Plan) (hpend : s.pend = some (code, d))
    (hcode : code ∉ [OutCode.ok, .deviceFault]) : commitPhase p s = commitPhase { p with ping := false } s := by
  have hsuspect : suspectAfter p s code = suspectAfter { p with ping := false } s code := by
    simp only [List.mem_cons, List.not_mem_nil, or_false] at hcode
    simp [suspectAfter, hcode]
  rw [commitPhase, commitPhase, pendingOutcome_of_pend hpend, hsuspect]
  rfl

/-- A command that ends in CHECK only reports, unless it is a PING that ends OK or DEVICE_FAULT: CHECK, COMMIT
(R105, R111). -/
theorem ended_in_check_chain {i : Instr} {s : State} {p : Plan} {code : OutCode} {d : Detail} (hs : Started s)
    (hplan : planOf i s = p) (hends : checkPhase p s = endWith code d s)
    (hping : p.ping = false ∨ code ∉ [OutCode.ok, .deviceFault]) : ExecChain i 2 s (endedOnly s code d) := by
  obtain ⟨hphase, hframe, hacc, hrx, hdec, -⟩ := hs
  have hcommit (q : Plan) (hq : q.ping = false) : commitPhase q (endWith code d s) = endedOnly s code d :=
    commitPhase_endedOnly (s := endWith code d s) hq hframe hacc hrx (by simp [hdec]) rfl
  refine ⟨endWith code d s, ?_, _, exec_of_plan (endWith code d s) hplan rfl, ?_⟩
  · rw [exec_of_plan s hplan rfl, runPhase, hphase]
    exact congrArg _ hends
  · obtain hping | hcode := hping
    · exact hcommit p hping
    · exact (commitPhase_without_ping p rfl hcode).trans (hcommit _ rfl)

/-- Settles O31: NOP has no test that could fail, and its CHECK ends OK. -/
theorem nopCompletes : Obligations.NopCompletes := fun _ _ hs =>
  ended_in_check_chain (p := planNop) hs rfl rfl (.inl rfl)

theorem planOf_reserved {i : Instr} {k : Nat} (s : State)
    (h : i ∈ [.reservedB k, .reservedC k, .reservedD k, .reservedE k, .reservedF k]) : planOf i s = planReserved := by
  simp only [List.mem_cons, List.not_mem_nil, or_false] at h
  obtain rfl | rfl | rfl | rfl | rfl := h <;> rfl

/-- Settles O32: the reserved opcodes have one plan, and its CHECK fails. -/
theorem reservedEndIllegal : Obligations.ReservedEndIllegal := fun _ _ s hreserved hs =>
  ⟨rejected_chain hs (planOf_reserved s hreserved) rfl rfl, rfl⟩

/-! ### The CHECK tests -/

/-- A usage error is no outcome that clears `BUS_SUSPECT`, so even a PING that is turned away only reports. -/
theorem usageError_chain {i : Instr} {s : State} {p : Plan} {d : Detail} (hs : Started s) (hplan : planOf i s = p)
    (hcheck : p.check = some (.usageError, d)) : ExecChain i 2 s (endedOnly s .usageError d) :=
  ended_in_check_chain hs hplan (by rw [checkPhase, hcheck]) (.inr (by decide))

theorem planOf_raw {i : Instr} {k : Nat} (s : State) (h : i = .encode k ∨ i = .sendRaw k) :
    ∃ sends, planOf i s = rawPlan sends s := by
  obtain rfl | rfl := h
  · exact ⟨false, rfl⟩
  · exact ⟨true, rfl⟩

/-- Settles O43: each clause runs its command's tests up to the one that fails. -/
theorem rejectedCommandsOnlyReport : Obligations.RejectedCommandsOnlyReport := by
  intro i k c s hs
  refine ⟨?ping, fun hraw => ?raw, fun hread => ?read, fun hwrite => ?write, ?action⟩
  case ping =>
    rintro rfl hid
    exact usageError_chain (p := planPing s) hs rfl (if_pos hid)
  case raw =>
    obtain ⟨sends, hplan⟩ := planOf_raw s hraw
    refine ⟨fun hid => usageError_chain hs hplan ?_, fun hid hcount => usageError_chain hs hplan ?_⟩
    · exact if_pos hid
    · exact (if_neg (Nat.not_lt.mpr hid)).trans (if_pos hcount)
  case read =>
    have hplan := planOf_read hread
    refine ⟨fun hk => usageError_chain hs hplan ?_, fun hk hc => usageError_chain hs hplan ?_⟩
    · exact if_pos hk
    · exact (if_neg (Nat.not_le.mpr hk)).trans (if_pos hc)
  case write =>
    have hplan := planOf_write hwrite
    refine ⟨fun hk => usageError_chain hs hplan ?_, fun hk hc => usageError_chain hs hplan ?_,
      fun hk hc hlimit => usageError_chain hs hplan ?_⟩
    · exact if_pos hk
    · exact (if_neg (Nat.not_le.mpr hk)).trans (if_pos (by omega))
    · have hoverflows : overflowsRegisters s c = true := decide_eq_true hlimit
      exact (if_neg (Nat.not_le.mpr hk)).trans ((if_neg (by omega)).trans (if_pos hoverflows))
  case action =>
    rintro rfl hunicast hk
    have hbroadcast : broadcast s = false := hunicast
    exact usageError_chain (p := planAction k s) hs rfl (if_pos (by simp [hbroadcast, hk]))

/-! ### The TX phase -/

/-- A frame that the Transport takes only in part ends the command, whether or not it expects a reply (R107). -/
theorem txPhase_of_short {s : State} {f : List Byte} {a : Nat} {rest : List (Option Nat)} (p : Plan)
    (hframe : s.frame = some f) (hanswer : s.txAnswers = some a :: rest) (hshort : a < f.length) :
    txPhase p s =
      endWith .txIncomplete .zero
        { s with acc := some a, txAnswers := rest, busLog := s.busLog ++ [.txWrite f a] } := by
  have hget : s.frame.getD [] = f := by rw [hframe, Option.getD_some]
  rw [txPhase, hget, txWrite_answer hanswer hshort.le]
  exact if_pos hshort

/-- Settles O45: the one answer is short of the frame, or it is the frame's length. -/
theorem txPhaseRule : Obligations.TxPhaseRule := by
  intro i s f a rest _ hphase hframe hanswer hbound
  rw [exec_tx i hphase, expectedReply_eq_plan_reply]
  by_cases hshort : a < f.length
  · rw [if_pos hshort, txPhase_of_short _ hframe hanswer hshort]
    rfl
  · obtain rfl : a = f.length := Nat.le_antisymm hbound (Nat.not_lt.mp hshort)
    rw [if_neg hshort, txPhase_of_whole _ hframe hanswer]
    rfl

/-! ### A reply that is no valid frame -/

theorem exec_decode (i : Instr) {s : State} (h : s.phase = .decode) :
    exec i s = .next (decodePhase (planOf i s) s) := by
  rw [exec_eq_runPhase, runPhase, h]

theorem isBusCommand_eq_plan_sends (i : Instr) (s : State) : isBusCommand i = (planOf i s).sends := by cases i <;> rfl

/-- A bus command decodes all the bytes it received (R109). -/
theorem decodeInput_of_reply {p : Plan} {s : State} {bytes : List Byte} (hsends : p.sends = true)
    (hrx : s.rx = some bytes) : decodeInput p s = decodeFrame bytes bytes.length := by
  rw [decodeInput, if_pos hsends, hrx, Option.getD_some]

/-- Settles O47: DECODE ends the command with what the decoder answers about the reply. -/
theorem badReplyEndsCommand : Obligations.BadReplyEndsCommand := by
  intro i s bytes hbus hphase hrx
  rw [exec_decode i hphase, ← decodeInput_of_reply ((isBusCommand_eq_plan_sends i s).symm.trans hbus) hrx]
  exact ⟨fun d hmalformed => congrArg _ (decodePhase_of_malformed hmalformed),
    fun hchecksum => congrArg _ (decodePhase_of_checksumMismatch hchecksum)⟩

/-! ### What changes `BUS_SUSPECT` -/

/-- The COMMITs after which `BUS_SUSPECT` has a value of their own: one with a framing error after TX, and a PING's that
was answered (R151). -/
inductive SuspectWritten (i : Instr) (s t : State) : Prop
  | set (c : OutCode) (d : Detail) (hcommit : s.phase = .commit) (hpend : s.pend = some (c, d))
      (hframing : s.acc.isSome = true ∧ c ∈ [OutCode.malformed, .checksumMismatch]) (hafter : t.busSuspect = true)
  | cleared (c : OutCode) (d : Detail) (hcommit : s.phase = .commit) (hpend : s.pend = some (c, d))
      (hanswered : (∃ k, i = .ping k) ∧ c ∈ [OutCode.ok, .deviceFault]) (hafter : t.busSuspect = false)

theorem commitPhase_busSuspect_eq (i : Instr) {s : State} {c : OutCode} {d : Detail} (hpend : s.pend = some (c, d)) :
    (commitPhase (planOf i s) s).busSuspect = suspectAfter (planOf i s) s c := by
  rw [commitPhase_busSuspect, pendingOutcome_of_pend hpend]

theorem exec_commit_busSuspect_of_framing {i : Instr} {s t : State} {c : OutCode} {d : Detail}
    (hcommit : s.phase = .commit) (hpend : s.pend = some (c, d)) (h : exec i s = .next t)
    (hframing : s.acc.isSome = true ∧ c ∈ [OutCode.malformed, .checksumMismatch]) : t.busSuspect = true := by
  obtain rfl : commitPhase (planOf i s) s = t := by simpa [exec_commit i hcommit] using h
  rw [commitPhase_busSuspect_eq i hpend, suspectAfter_of_framing _ hframing]

theorem exec_commit_busSuspect_of_ping {i : Instr} {s t : State} {c : OutCode} {d : Detail}
    (hcommit : s.phase = .commit) (hpend : s.pend = some (c, d)) (h : exec i s = .next t)
    (hanswered : (∃ k, i = .ping k) ∧ c ∈ [OutCode.ok, .deviceFault]) : t.busSuspect = false := by
  obtain rfl : commitPhase (planOf i s) s = t := by simpa [exec_commit i hcommit] using h
  rw [← plan_ping_iff i s] at hanswered
  rw [commitPhase_busSuspect_eq i hpend, suspectAfter_of_ping s hanswered]

theorem SequencerOnly.busSuspect {s t : State} (h : SequencerOnly s t) : t.busSuspect = s.busSuspect := by
  unfold SequencerOnly at h; rw [h]

/-- A block step keeps `BUS_SUSPECT` but in the two COMMITs. -/
theorem exec_busSuspect_cases {i : Instr} {s t : State} (hs : LatchesFit s) (h : exec i s = .next t) :
    t.busSuspect = s.busSuspect ∨ SuspectWritten i s t := by
  obtain ⟨hcommit, rfl⟩ | hseq := exec_commit_or_sequencerOnly h
  · obtain ⟨⟨c, d⟩, hpend⟩ : ∃ outcome, s.pend = some outcome := by
      simp only [LatchesFit, hcommit] at hs
      obtain ⟨hpend, -⟩ := hs
      exact Option.isSome_iff_exists.mp hpend
    by_cases hframing : s.acc.isSome = true ∧ c ∈ [OutCode.malformed, .checksumMismatch]
    · exact .inr (.set c d hcommit hpend hframing (exec_commit_busSuspect_of_framing hcommit hpend h hframing))
    by_cases hanswered : (∃ k, i = .ping k) ∧ c ∈ [OutCode.ok, .deviceFault]
    · exact .inr (.cleared c d hcommit hpend hanswered (exec_commit_busSuspect_of_ping hcommit hpend h hanswered))
    · rw [← plan_ping_iff i s] at hanswered
      exact .inl ((commitPhase_busSuspect_eq i hpend).trans (suspectAfter_of_neither hframing hanswered))
  · exact .inl hseq.busSuspect

theorem blockTurn_busSuspect_cases {s t : State} (hs : LatchesFit s) (h : blockTurn s = .next t) :
    t.busSuspect = s.busSuspect ∨ SuspectWritten (decodeCmd s.lat.inp.cmd) s t := by
  obtain ⟨-, hturn⟩ | ⟨-, -, hturn⟩ := blockTurn_cases s
  · obtain rfl : s = t := by simpa [hturn] using h
    exact .inl rfl
  · exact exec_busSuspect_cases hs (hturn ▸ h)

theorem writeLoc_busSuspect (l : Loc) (a : Nat) (d : Byte) (s : State) :
    (writeLoc l a d s).busSuspect = s.busSuspect := by
  cases l
  case buffer b => rw [writeLoc_buffer]
  all_goals rfl

theorem hostWrite_busSuspect (a : Addr) (d : Byte) (s : State) : (hostWrite a d s).busSuspect = s.busSuspect :=
  hostWrite_induct (P := fun u => u.busSuspect = s.busSuspect) a rfl rfl fun l b => writeLoc_busSuspect l b d s

theorem setReset_busSuspect_cases (level : Bool) (s : State) :
    (setReset level s).busSuspect = s.busSuspect ∨ (level = true ∧ (setReset level s).busSuspect = false) := by
  obtain h | ⟨hlevel, -, h⟩ := setReset_cases level s
  · exact .inl (by rw [h])
  · exact .inr ⟨hlevel, by rw [h]; rfl⟩

/-- A step keeps `BUS_SUSPECT` but in the two COMMITs and at a reset. -/
theorem step_busSuspect_cases {s t : State} (hs : LatchesFit s) (h : step s = .next t) :
    t.busSuspect = s.busSuspect ∨ (∃ rest, SuspectWritten (decodeCmd s.lat.inp.cmd) { s with schedule := rest } t) ∨
      (t.busSuspect = false ∧ s.schedule.head? = some (.rst true)) := by
  obtain ⟨-, hturn⟩ | ⟨turn, rest, hschedule, ⟨-, hturn⟩ | ⟨a, -, rfl⟩ | ⟨a, d, -, rfl⟩ | ⟨level, rfl, rfl⟩⟩ :=
    step_cases h
  · exact (blockTurn_busSuspect_cases hs hturn).imp_right fun hw => .inl ⟨s.schedule, hw⟩
  · exact (blockTurn_busSuspect_cases (s := { s with schedule := rest }) hs hturn).imp_right fun hw => .inl ⟨rest, hw⟩
  · exact .inl rfl
  · exact .inl (hostWrite_busSuspect a d _)
  · obtain hkept | ⟨rfl, hcleared⟩ := setReset_busSuspect_cases level { s with schedule := rest }
    · exact .inl hkept
    · exact .inr (.inr ⟨hcleared, by rw [hschedule]; rfl⟩)

/-- Settles O50: of the moves only COMMIT and reset write `BUS_SUSPECT`, and COMMIT writes a value of its own exactly in
the two cases of R151. -/
theorem busSuspectRule : Obligations.BusSuspectRule := by
  refine ⟨fun s t hs hstep hchanged => ?_, fun i s t c d hcommit hpend hexec => ⟨fun hacc hc => ?_, fun hping hc => ?_⟩⟩
  · obtain hkept | ⟨rest, hwritten⟩ | hreset := step_busSuspect_cases hs hstep
    · exact absurd hkept hchanged
    · cases hwritten with
      | set c d hcommit hpend hframing hafter =>
        obtain ⟨hacc, hc⟩ := hframing
        exact .inl ⟨hcommit, hafter, hacc, c, d, hpend, hc⟩
      | cleared c d hcommit hpend hanswered hafter =>
        obtain ⟨hping, hc⟩ := hanswered
        exact .inr (.inl ⟨hcommit, hafter, hping, c, d, hpend, hc⟩)
    · exact .inr (.inr hreset)
  · exact exec_commit_busSuspect_of_framing hcommit hpend hexec ⟨hacc, hc⟩
  · exact exec_commit_busSuspect_of_ping hcommit hpend hexec ⟨hping, hc⟩

end Sys2Proof.Proofs
end

section
/-! The packet codec (41_codec.md): what the checksum detects (O8), the decoder's checks one by one (O13), the round trip
(O10), single-byte errors (O12) and the bound of the decoder's reads (O14). -/

namespace Sys2Proof.Proofs

open Sys2Proof Sys2Proof.Machine

/-! ### The checksum -/

/-- Sum and checksum make 255 mod 256, and the checksum is the only byte that does this (R114). -/
theorem byteSum_add_mod_eq_iff (xs : List Byte) (c : Byte) :
    (byteSum xs + c.toNat) % 256 = 255 ↔ c = checksum xs := by
  have hc : c.toNat < 256 := c.isLt
  rw [← BitVec.toNat_inj, checksum_toNat]
  omega

theorem byteSum_middle (xs ys : List Byte) (x : Byte) : byteSum (xs ++ x :: ys) = x.toNat + byteSum (xs ++ ys) := by
  rw [byteSum_append, byteSum_cons, byteSum_append]
  omega

/-- Exchanging one byte for another keeps the sum mod 256 only if the two are equal (R114). -/
theorem byteSum_middle_mod_eq_iff (xs ys : List Byte) (x y : Byte) :
    byteSum (xs ++ x :: ys) % 256 = byteSum (xs ++ y :: ys) % 256 ↔ x = y := by
  have hx : x.toNat < 256 := x.isLt
  have hy : y.toNat < 256 := y.isLt
  rw [byteSum_middle, byteSum_middle, ← BitVec.toNat_inj]
  omega

theorem byteSum_two_middle (xs ys zs : List Byte) (x y : Byte) :
    byteSum (xs ++ x :: ys ++ y :: zs) = x.toNat + y.toNat + byteSum (xs ++ ys ++ zs) := by
  rw [byteSum_middle, List.append_assoc, List.cons_append, byteSum_middle, List.append_assoc]
  omega

/-- What one byte gains and another loses cancels mod 256. -/
theorem toNat_add_add_toNat_sub_mod (x y d : Byte) :
    ((x + d).toNat + (y - d).toNat) % 256 = (x.toNat + y.toNat) % 256 := by
  rw [BitVec.toNat_add, BitVec.toNat_sub]
  have hd : d.toNat < 256 := d.isLt
  omega

/-- Settles O8: every point is a fact about the sum mod 256, which determines the checksum. -/
theorem checksumProperties : Obligations.ChecksumProperties := by
  refine ⟨byteSum_add_mod_eq_iff, fun xs ys x y hne => ?_, fun xs ys zs x y => ?_, fun xs ys zs x y d => ?_, rfl,
    fun xs hsum => ?_, fun xs hsum => ?_⟩
  · rwa [Ne, checksum_eq_iff, byteSum_middle_mod_eq_iff]
  · rw [checksum_eq_iff, byteSum_two_middle, byteSum_two_middle, Nat.add_comm x.toNat]
  · have hcancel := toNat_add_add_toNat_sub_mod x y d
    rw [checksum_eq_iff, byteSum_two_middle, byteSum_two_middle]
    omega
  · rw [checksum, hsum]
    rfl
  · rw [checksum, hsum]
    rfl

/-! ### The decoder's checks -/

section
variable {buf : List Byte} {r : Nat}

theorem decodeFrame_of_header (hr : 6 ≤ r) (hheader : byteOf buf 0 ≠ 0xFF ∨ byteOf buf 1 ≠ 0xFF) :
    decodeFrame buf r = .malformed .header := by
  rw [decodeFrame, if_neg (Nat.not_lt.mpr hr), if_pos hheader]

/-- The answer to `r` bytes that pass the checks SHORT and HEADER: what the checks LENGTH and checksum say. -/
theorem decodeFrame_after_header (hr : 6 ≤ r) (h0 : byteOf buf 0 = 0xFF) (h1 : byteOf buf 1 = 0xFF) :
    decodeFrame buf r =
      if (byteOf buf 3).toNat + 4 ≠ r then .malformed .length
      else if byteOf buf (r - 1) ≠ checksum (sliceOf buf 2 (r - 1)) then .checksumMismatch
      else .valid (byteOf buf 2) (byteOf buf 4) (sliceOf buf 5 (r - 1)) := by
  rw [decodeFrame, if_neg (Nat.not_lt.mpr hr), if_neg (by simp [h0, h1])]

theorem decodeFrame_of_length (hr : 6 ≤ r) (h0 : byteOf buf 0 = 0xFF) (h1 : byteOf buf 1 = 0xFF)
    (hlength : (byteOf buf 3).toNat + 4 ≠ r) : decodeFrame buf r = .malformed .length := by
  rw [decodeFrame_after_header hr h0 h1, if_pos hlength]

theorem decodeFrame_of_checksum (hr : 6 ≤ r) (h0 : byteOf buf 0 = 0xFF) (h1 : byteOf buf 1 = 0xFF)
    (hlength : (byteOf buf 3).toNat + 4 = r) (hsum : byteOf buf (r - 1) ≠ checksum (sliceOf buf 2 (r - 1))) :
    decodeFrame buf r = .checksumMismatch := by
  rw [decodeFrame_after_header hr h0 h1, if_neg (not_not.mpr hlength), if_pos hsum]

theorem decodeFrame_of_checks (hr : 6 ≤ r) (h0 : byteOf buf 0 = 0xFF) (h1 : byteOf buf 1 = 0xFF)
    (hlength : (byteOf buf 3).toNat + 4 = r) (hsum : byteOf buf (r - 1) = checksum (sliceOf buf 2 (r - 1))) :
    decodeFrame buf r = .valid (byteOf buf 2) (byteOf buf 4) (sliceOf buf 5 (r - 1)) := by
  rw [decodeFrame_after_header hr h0 h1, if_neg (not_not.mpr hlength), if_neg (not_not.mpr hsum)]

/-- A valid answer's parameters are the bytes that the packet's layout leaves for them (R117). -/
theorem params_length_eq_of_decodeFrame_valid {src err : Byte} {params : List Byte} (hr : r ≤ buf.length)
    (hvalid : decodeFrame buf r = .valid src err params) :
    params.length = r - 6 ∧ params.length = (byteOf buf 3).toNat - 2 := by
  obtain ⟨hframe, hfits⟩ := (decoderAcceptsExactlyFrames buf r src err params hr).mp hvalid
  have hlen : r = params.length + 6 := by
    rw [← length_encodeFrame src err params, ← hframe, List.length_take_of_le hr]
  have hbyte : byteOf buf 3 = BitVec.ofNat 8 (params.length + 2) := by
    rw [← byteOf_take (r := r) (by omega), hframe]
    rfl
  rw [hbyte, toNat_lengthByte hfits]
  omega

end

/-- Settles O13: one lemma for each check, and the length of what is left when all are passed. -/
theorem decoderCheckOrder : Obligations.DecoderCheckOrder := fun _ _ =>
  ⟨decodeFrame_of_short, decodeFrame_of_header, decodeFrame_of_length, decodeFrame_of_checksum, decodeFrame_of_checks,
    fun _ _ _ hr hvalid =>
      have ⟨hcount, hbyte⟩ := params_length_eq_of_decodeFrame_valid hr hvalid
      ⟨hcount, hbyte, params_length_of_decodeFrame_valid hvalid⟩⟩

/-- Settles O10: the decoder accepts an encoded frame as the frame of its own fields. -/
theorem frameRoundTrip : Obligations.FrameRoundTrip := fun id code params hfits =>
  (decodeFrame_length_eq_valid_iff _ id code params).mpr ⟨rfl, hfits⟩

/-! ### One changed byte -/

theorem byteOf_set (w : List Byte) {k : Nat} (i : Nat) (b : Byte) (hk : k < w.length) :
    byteOf (w.set k b) i = if k = i then b else byteOf w i := by
  simp only [byteOf, List.getD_eq_getElem?_getD, List.getElem?_set, hk, if_true]
  split <;> rfl

/-- Changing a byte changes the sum mod 256 (R114). -/
theorem byteSum_set_mod_eq_iff {w : List Byte} {k : Nat} (b : Byte) (hk : k < w.length) :
    byteSum (w.set k b) % 256 = byteSum w % 256 ↔ b = w[k] := by
  have hparts : w = w.take k ++ w[k] :: w.drop (k + 1) := by simp
  rw [List.set_eq_take_append_cons_drop, if_pos hk]
  conv_lhs => rhs; rw [hparts]
  exact byteSum_middle_mod_eq_iff ..

/-- A packet's checksum byte is right exactly when its bytes from 2 on sum to 255 mod 256 (R114). -/
theorem checksum_ok_iff {w : List Byte} (h : 6 ≤ w.length) :
    byteOf w (w.length - 1) = checksum (sliceOf w 2 (w.length - 1)) ↔ byteSum (w.drop 2) % 256 = 255 := by
  obtain ⟨b0, b1, src, len, err, params, ck, rfl⟩ := exists_packet_parts h
  have hlast : (b0 :: b1 :: src :: len :: err :: (params ++ [ck])).length - 1 = params.length + 5 := by simp
  have hdrop : (b0 :: b1 :: src :: len :: err :: (params ++ [ck])).drop 2 = (src :: len :: err :: params) ++ [ck] := rfl
  rw [hlast, byteOf_packet_last, sliceOf_packet_body, hdrop, byteSum_append, ← byteSum_add_mod_eq_iff]
  rfl

section
variable {w : List Byte} {src err b : Byte} {params : List Byte} {k : Nat}

/-- The three checks that a valid packet of its own length has passed. -/
theorem checks_of_decodeFrame_valid (hvalid : decodeFrame w w.length = .valid src err params) :
    6 ≤ w.length ∧ byteOf w 0 = 0xFF ∧ byteOf w 1 = 0xFF ∧ (byteOf w 3).toNat + 4 = w.length ∧
      byteSum (w.drop 2) % 256 = 255 := by
  unfold decodeFrame at hvalid
  split_ifs at hvalid with hshort hheader hlength hsum
  have h6 : 6 ≤ w.length := Nat.not_lt.mp hshort
  simp only [not_or, not_not] at hheader hlength hsum
  exact ⟨h6, hheader.1, hheader.2, hlength, (checksum_ok_iff h6).mp hsum⟩

theorem drop_two_set_sum_ne (hk : k < w.length) (h2 : 2 ≤ k) (hb : b ≠ byteOf w k) :
    byteSum ((w.set k b).drop 2) % 256 ≠ byteSum (w.drop 2) % 256 := by
  have hindex : k - 2 < (w.drop 2).length := by rw [List.length_drop]; omega
  have hbyte : (w.drop 2)[k - 2] = byteOf w k := by
    simp [byteOf, List.getD_eq_getElem?_getD, hk, Nat.add_sub_cancel' h2]
  rwa [List.drop_set, if_neg (Nat.not_lt.mpr h2), Ne, byteSum_set_mod_eq_iff b hindex, hbyte]

/-- A valid packet with one changed byte fails the check that R126 names for the place of the byte. -/
theorem decodeFrame_set_of_valid (hvalid : decodeFrame w w.length = .valid src err params) (hk : k < w.length)
    (hb : b ≠ byteOf w k) :
    decodeFrame (w.set k b) w.length =
      if k < 2 then .malformed .header else if k = 3 then .malformed .length else .checksumMismatch := by
  obtain ⟨h6, h0, h1, hlength, hsum⟩ := checks_of_decodeFrame_valid hvalid
  have hchanged : byteOf (w.set k b) k = b := by rw [byteOf_set w k b hk, if_pos rfl]
  have hother : ∀ i, k ≠ i → byteOf (w.set k b) i = byteOf w i := fun i hi => by rw [byteOf_set w i b hk, if_neg hi]
  by_cases hheader : k < 2
  · rw [if_pos hheader]
    obtain rfl | rfl : k = 0 ∨ k = 1 := by omega
    · exact decodeFrame_of_header h6 (.inl (by rwa [hchanged, ← h0]))
    · exact decodeFrame_of_header h6 (.inr (by rwa [hchanged, ← h1]))
  rw [if_neg hheader]
  have h0' := (hother 0 (by omega)).trans h0
  have h1' := (hother 1 (by omega)).trans h1
  by_cases hthree : k = 3
  · subst hthree
    refine (decodeFrame_of_length h6 h0' h1' ?_).trans (if_pos rfl).symm
    rw [hchanged, ← hlength, Ne, Nat.add_right_cancel_iff, BitVec.toNat_inj]
    exact hb
  · rw [if_neg hthree]
    refine decodeFrame_of_checksum h6 h0' h1' (by rwa [hother 3 hthree]) ?_
    have hsum' := drop_two_set_sum_ne hk (Nat.not_lt.mp hheader) hb
    rw [hsum] at hsum'
    have hok := checksum_ok_iff (w := w.set k b) (by rwa [List.length_set])
    rw [List.length_set] at hok
    exact fun heq => hsum' (hok.mp heq)

end

/-- Settles O12: an encoded frame is a valid packet. -/
theorem singleByteErrorsDetected : Obligations.SingleByteErrorsDetected :=
  fun id code params _ _ hfits hk hb => decodeFrame_set_of_valid (frameRoundTrip id code params hfits) hk hb

/-! ### The bound of the decoder's reads -/

/-- The length byte cannot announce more than 259 bytes, so only the header is looked at (R119). -/
theorem decodeFrame_of_long {r : Nat} (buf : List Byte) (hr : 259 < r) :
    decodeFrame buf r =
      if byteOf buf 0 ≠ 0xFF ∨ byteOf buf 1 ≠ 0xFF then .malformed .header else .malformed .length := by
  have hbyte : (byteOf buf 3).toNat < 256 := (byteOf buf 3).isLt
  rw [decodeFrame, if_neg (by omega), if_pos (by omega : (byteOf buf 3).toNat + 4 ≠ r)]

/-- The decoder does not look past byte 258, whatever `r` is (R119). -/
theorem decodeFrame_take_259 (buf : List Byte) (r : Nat) : decodeFrame (buf.take 259) r = decodeFrame buf r := by
  by_cases hr : r ≤ 259
  · rw [← decodeFrame_take, List.take_take, Nat.min_eq_left hr, decodeFrame_take]
  · have hlong : 259 < r := Nat.not_le.mp hr
    rw [decodeFrame_of_long _ hlong, decodeFrame_of_long _ hlong, byteOf_take (by decide), byteOf_take (by decide)]

/-- Settles O14: cutting the input at 259 bytes does not change the answer, and a longer count leaves two answers. -/
theorem decoderReadsAtMost259Bytes : Obligations.DecoderReadsAtMost259Bytes := by
  refine fun buf buf' r => ⟨fun htake => ?_, fun hlong => ?_⟩
  · rw [← decodeFrame_take_259 buf, htake, decodeFrame_take_259]
  · rw [decodeFrame_of_long buf hlong]
    split
    · exact .inl rfl
    · exact .inr rfl

end Sys2Proof.Proofs
end

section
/-! The first fault of an error byte (O16). -/

namespace Sys2Proof.Proofs

open Sys2Proof Sys2Proof.Machine

theorem firstFault_eq_iff (e : Byte) {k : Nat} (hk : k ≤ 6) :
    firstFault e = k ↔ (e.getLsbD k = true ∧ ∀ j < k, e.getLsbD j = false) := by
  have hrange : k ∈ List.range 7 := List.mem_range.mpr (Nat.lt_succ_of_le hk)
  rw [firstFault, Option.getD_eq_iff, or_iff_left (by omega), List.find?_range_eq_some, and_iff_right hrange]
  simp only [Bool.not_eq_true']

/-- Bit 7 is not searched, so 7 says that no bit was found (R121). -/
theorem firstFault_eq_seven_iff (e : Byte) : firstFault e = 7 ↔ ∀ j ≤ 6, e.getLsbD j = false := by
  have hseven : ¬ (List.range 7).find? (fun i => e.getLsbD i) = some 7 := fun hfind =>
    absurd (List.mem_of_find?_eq_some hfind) (by decide)
  rw [firstFault, Option.getD_eq_iff, or_iff_right hseven, and_iff_left rfl, List.find?_range_eq_none]
  simp only [Bool.not_eq_true', Nat.lt_succ_iff]

theorem firstFault_le (e : Byte) : firstFault e ≤ 7 := by
  unfold firstFault
  cases hfind : (List.range 7).find? fun i => e.getLsbD i with
  | none => exact Nat.le_refl 7
  | some i => exact (List.mem_range.mp (List.mem_of_find?_eq_some hfind)).le

theorem hostRead_faultFirst_toNat (s : State) : (hostRead 0x014 s).toNat = firstFault s.rxError := by
  have hread : hostRead 0x014 s = BitVec.ofNat 8 (firstFault s.rxError) := rfl
  have hle := firstFault_le s.rxError
  rw [hread, BitVec.toNat_ofNat]
  omega

/-- Settles O16: a search from bit 0 up finds the lowest set bit, and its result fits `FAULT_FIRST`. -/
theorem firstFaultIsLowestSetBit : Obligations.FirstFaultIsLowestSetBit :=
  ⟨fun e _ hk => firstFault_eq_iff e hk, firstFault_eq_seven_iff, fun s =>
    ⟨hostRead_faultFirst_toNat s, fun _ hj => hostRead_fault_getLsbD s (Nat.lt_succ_of_le hj)⟩⟩

end Sys2Proof.Proofs
end

section
/-! The numbers of the outcome and detail codes (O15). -/

namespace Sys2Proof.Proofs

open Sys2Proof Sys2Proof.Machine

/-- Settles O15: each code is one row of its table, R142 for the outcomes and R143 for the details. -/
theorem outcomeAndDetailCodes : Obligations.OutcomeAndDetailCodes := ⟨rfl, rfl⟩

end Sys2Proof.Proofs
end

section
/-! Reset asserted while a command may run (O60). -/

namespace Sys2Proof.Proofs

open Sys2Proof Sys2Proof.Machine

theorem step_of_rst {s : State} {level : Bool} {rest : List Turn} (h : s.schedule = .rst level :: rest) :
    step s = .next (setReset level { s with schedule := rest }) := by rw [step, h]

theorem setReset_true_of_released {s : State} (h : s.rst = false) : setReset true s = s.resetImage := by
  rw [setReset, if_pos rfl, h, if_neg Bool.false_ne_true]

/-- Asserting reset takes the block to its reset image in one step, whatever the phase (R159, R160). -/
theorem step_of_rst_asserted {s : State} {rest : List Turn} (hrst : s.rst = false)
    (hschedule : s.schedule = .rst true :: rest) :
    step s = .next (State.resetImage { s with schedule := rest }) := by
  rw [step_of_rst hschedule, setReset_true_of_released (s := { s with schedule := rest }) hrst]

/-- Settles O60: no phase of the command runs on the turn that asserts reset, and the reset image keeps the Transport
and is dead to the host. -/
theorem resetAbandonsCommand : Obligations.ResetAbandonsCommand := by
  intro s rest hrst hschedule
  refine ⟨State.resetImage { s with schedule := rest }, step_of_rst_asserted hrst hschedule, ?_⟩
  exact ⟨resetImage_rst _, resetImage_heldAtReset _, resetImage_phase _, resetImage_done _, resetImage_nsess _,
    resetImage_schedule _, resetImage_busLog _, resetImage_txAnswers _, resetImage_rxAnswers _,
    fun a d => hostWrite_of_rst a d (resetImage_rst _)⟩

end Sys2Proof.Proofs
end
